-- ==== Sys2Proof/Word.lean ====
section
/-! DEFINITION. The bit-vector types of the block (spec/00_scope.md R12, R13): a word is 32 bits, bit 31
the most significant; a byte is 8 bits; a slot class is a nibble of 4 bits. -/

namespace Sys2Proof

/-- A word (in this spec also "dword"): a 32-bit unsigned value (R12, R19). -/
abbrev Word := BitVec 32

/-- A byte (R13). -/
abbrev Byte := BitVec 8

/-- A slot class nibble of a status word (R102). -/
abbrev Nibble := BitVec 4

/-- A 16-bit value: a region, a flagged address, a response address field (R52, R53, R127). -/
abbrev Half := BitVec 16

/-- An 8-byte record of the transmit stream, read as the big-endian 64-bit value of its bytes in wire
order: wire byte 0 is bits 63..56, wire byte 7 is bits 7..0 (R125, R128). -/
abbrev Rec := BitVec 64

end Sys2Proof
end

