-- ==== Sys2Proof/Machine/Literals.lean ====
section
/-! DEFINITION. The numeric literals the spec fixes, each under a name (spec/00_scope.md R5, R10;
spec/93_implementation_defined.md I25), so that a record of the hardware can correct one of them. -/

namespace Sys2Proof.Lit

/-- `STATUS_MARKER` (R101). -/
def statusMarker : Nibble := 0xE
/-- `FILLER_WORD` (R104). -/
def fillerWord : Word := 0x55556666
/-- The smallest `ACC_CAP`, which is also its reference value (R10). -/
def accCapMin : Nat := 260
/-- `SLOTS_PER_GROUP` (R105). -/
def slotsPerGroup : Nat := 7
/-- `RX_BUF_BYTES`, also the `max_bytes` of each receive transport read (R10, R161). -/
def rxBufBytes : Nat := 1040
/-- The raw transfer buffer in whole words (R11). -/
def rxBufWords : Nat := rxBufBytes / 4
/-- `REG_SPACE_BYTES` (R51). -/
def regSpaceBytes : Nat := 4096
/-- `REG_ADDR_MASK` (R287). -/
def regAddrMask : Half := 0x0FFF
/-- `REG_RESP_DELAY_MS` (R290, R400). -/
def regRespDelayMs : Nat := 10
/-- `REQUIRED_VERSION` (R55). -/
def requiredVersion : Byte := 4
/-- `VERSION_REG` (R55). -/
def versionReg : Nat := 0x0008
/-- `FILTER_REG` (R56). -/
def filterReg : Nat := 0x0019
/-- `FILTER_BIT` (R56). -/
def filterBit : Byte := 0x10
/-- The region flag of the read-only core (R52). -/
def regionReadOnly : Half := 0x0000
/-- The region flag of the read-write core (R52). -/
def regionReadWrite : Half := 0x8000
/-- The region flag of the shadow configuration space (R52). -/
def regionShadow : Half := 0xC000
/-- Byte 6 of a register read request, without the channel (R126). -/
def cmdRead : Byte := 0x10
/-- Byte 6 of a register write request, without the channel (R126). -/
def cmdWrite : Byte := 0x20
/-- Byte 7 of every record of the transmit stream (R125, R128). -/
def recTrailer : Byte := 0x77
/-- Byte 6 of the record of a TLP's last word (R128). -/
def txLastCmd : Byte := 0x04

/-- The "well-known console register offset" of the configuration space that a configuration TLP names. No rule
of the block uses it: the Completion/Forwarding Logic, which is out of scope, does (R5, R85, I25). -/
def consoleRegOff : BitVec 12 := 0x200

end Sys2Proof.Lit
end

