-- ==== Sys2Proof/Config.lean ====
section
/-! DEFINITION. What an implementation fixes (spec/00_scope.md R10): the parameters that the spec leaves
OPEN or gives a named alternative, as plain data that a state carries and no step changes, and the free
values, as constants without a body. The literals the spec fixes stand in Sys2Proof/Machine/Literals.lean. -/

namespace Sys2Proof

/-- `FRAME_ORDER`: the byte order in which status and filler words are assembled (R75, R79). -/
inductive FrameOrder where
  | be
  | le
  deriving DecidableEq, Repr

/-- `NODATA_POLICY`: which empty reads report NoData (R172). -/
inductive NoDataPolicy where
  | state
  | stateOrIdle
  deriving DecidableEq, Repr

/-- `DECODE_CHECK`: how many words TLP_DECODE requires (R223). -/
inductive DecodeCheck where
  | total
  | header
  deriving DecidableEq, Repr

/-- `TX_TLP_FRAMING`: the default record framing of R128, or another framing, named by a number, of which
the spec says only that it is a function of the word list (R225). -/
inductive TxFraming where
  | rec877
  | other (k : Nat)
  deriving DecidableEq, Repr

/-- The parameters of R10 that are OPEN or have a named alternative. A state carries them; no step changes
them (R79: fixed for a model instance). -/
structure Params where
  /-- `FRAME_ORDER`. -/
  frameOrder : FrameOrder
  /-- `NODATA_POLICY`. -/
  noDataPolicy : NoDataPolicy
  /-- `DECODE_CHECK`. -/
  decodeCheck : DecodeCheck
  /-- `ACC_CAP`, at least 260. -/
  accCap : Nat
  /-- `MAX_EMPTY_RETRIES`: `none` is INF. -/
  maxEmptyRetries : Option Nat
  /-- `REG_CH`, one of 1, 2, 3. -/
  regCh : Nat
  /-- `HARVEST_READS`, at least 1. -/
  harvestReads : Nat
  /-- `TX_BATCH_BYTES`, a multiple of 8, at least 8. -/
  txBatchBytes : Nat
  /-- `TX_TLP_FRAMING`. -/
  txFraming : TxFraming
  deriving DecidableEq, Repr

/-- The values R10 gives as this hardware's or as defaults. For the three parameters that R10 leaves
without a value (`REG_CH`, `HARVEST_READS`, `TX_BATCH_BYTES`) these are the values that
spec/95_test_vectors.md uses unless a vector says otherwise. DESIGN CHOICE (log entry 2), unsafe only for a
claim about `State.reset` that rests on them; every claim over all states quantifies over them. -/
def Params.reference : Params where
  frameOrder := .be
  noDataPolicy := .state
  decodeCheck := .total
  accCap := Lit.accCapMin
  maxEmptyRetries := none
  regCh := 3
  harvestReads := 1
  txBatchBytes := 1024
  txFraming := .rec877

/-- The constraints R10 puts on the parameters. -/
abbrev Params.wf (p : Params) : Prop :=
  Lit.accCapMin ≤ p.accCap ∧ 1 ≤ p.regCh ∧ p.regCh ≤ 3 ∧ 1 ≤ p.harvestReads ∧
    8 ≤ p.txBatchBytes ∧ p.txBatchBytes % 8 = 0

/-- FREE VALUE (log entry 3): the bytes a TLP is sent as under the framing named `k` (R225: "Its only
constraint is that it is a function of the word list"). -/
opaque Config.otherFraming : Nat → List Word → List Byte

/-- FREE VALUE (log entry 4): byte `k`, not matched by any response, of the output of a register read that
ended with `TransportError`, at draw `n` (R290, I15 of spec/93_implementation_defined.md: "any value"). -/
opaque Config.freeByte : Nat → Nat → Byte

/-- FREE VALUE (log entry 9): the answer of the TransportWrite at draw `n`, where a state lists no further
answer: `none` is Ok, `some k` is TErr after the first `k` bytes went out (R15: the environment's draw). -/
opaque Config.writeError : Nat → Option Nat

end Sys2Proof
end

