-- ==== Sys2Proof/Machine/Bits.lean ====
section
/-! DEFINITION. Byte order and bit fields: the notation of spec/00_scope.md R12, R13 and the word values
of spec/20_memory.md R74, R75, R80 and spec/40_deinterleaver.md R179. -/

namespace Sys2Proof

/-- `be32(b0,b1,b2,b3)`: b0, the byte that arrives first, is bits 31..24 (R13). -/
def be32 (b0 b1 b2 b3 : Byte) : Word := b0 ++ b1 ++ b2 ++ b3

/-- Byte `k` of a word held in be32 form: bits 31-8k .. 24-8k, its wire byte k (R13). -/
def byteOf (w : Word) (k : Nat) : Byte := w.extractLsb' (24 - 8 * k) 8

/-- `bytes_be(w)`: the wire bytes of a word, the first first (R13). -/
def bytesBe (w : Word) : List Byte := [byteOf w 0, byteOf w 1, byteOf w 2, byteOf w 3]

/-- `le32` of the wire bytes whose be32 value is `w` (R13). -/
def swapBytes (w : Word) : Word := be32 (byteOf w 3) (byteOf w 2) (byteOf w 1) (byteOf w 0)

/-- `fv(q)`, the value of a word where a status or filler word is expected, from its be32 value: the word
itself under `FRAME_ORDER = BE`, its byte swap under `LE` (R75, R179). -/
def frameValue (o : FrameOrder) (w : Word) : Word :=
  match o with
  | .be => w
  | .le => swapBytes w

/-- `nib(v, k)`: nibble k of a word (R12). -/
def nib (v : Word) (k : Nat) : Nibble := v.extractLsb' (4 * k) 4

/-- Bits 31..28 of a word: the `MARK` field where a status word is expected (R101). -/
def markOf (v : Word) : Nibble := v.extractLsb' 28 4

/-- The whole words of a byte sequence, as be32 values; the trailing bytes that make no whole word are
dropped (R80). -/
def wordsOf : List Byte → List Word
  | b0 :: b1 :: b2 :: b3 :: rest => be32 b0 b1 b2 b3 :: wordsOf rest
  | _ => []

/-- The wire bytes of a list of words (R13). -/
def bytesOfWords (ws : List Word) : List Byte := ws.flatMap bytesBe

/-- Wire byte `k` of an 8-byte record (R125). -/
def recByte (r : Rec) (k : Nat) : Byte := r.extractLsb' (56 - 8 * k) 8

/-- The eight wire bytes of a record, the first first (R125, R128). -/
def recBytes (r : Rec) : List Byte :=
  [recByte r 0, recByte r 1, recByte r 2, recByte r 3, recByte r 4, recByte r 5, recByte r 6, recByte r 7]

/-- The record whose wire bytes are the eight given, the first first (R125). -/
def recOf (b0 b1 b2 b3 b4 b5 b6 b7 : Byte) : Rec := b0 ++ b1 ++ b2 ++ b3 ++ b4 ++ b5 ++ b6 ++ b7

end Sys2Proof
end

