-- ==== Sys2Proof/Syntax.lean ====
section
/-! DEFINITION. The instructions: one constructor of `Instr` for every row of spec/opcode_table.json, with
the fields the spec gives the row as operands. -/

namespace Sys2Proof

/-- The number of header words a header value says it has: 3 or 4 (`H.hw`, R43). -/
inductive HdrWords where
  | dw3
  | dw4
  deriving DecidableEq, Repr

/-- The TLP header value `H`: four words in value form and the header word count (R43). -/
structure Header where
  w0 : Word
  w1 : Word
  w2 : Word
  w3 : Word
  hw : HdrWords
  deriving DecidableEq, Repr

/-- One constructor per row of spec/opcode_table.json. The host operations (R150) carry their typed
operands; the pseudo-instructions (R152) theirs; the wire units carry the bits the row leaves free. -/
inductive Instr where
  /-- RX_DECODE (R160). -/
  | rxDecode
  /-- RX_DISCARD (R177). -/
  | rxDiscard
  /-- RX_RESET (R178). -/
  | rxReset
  /-- TLP_HDRLEN `w` (R221). -/
  | tlpHdrlen (w : Word)
  /-- TLP_DECODE `ws` (R223). -/
  | tlpDecode (ws : List Word)
  /-- TLP_ENCODE `H`, `cap` (R224). -/
  | tlpEncode (h : Header) (cap : Nat)
  /-- TLP_SEND `H`, `tail` (R225). -/
  | tlpSend (h : Header) (tail : List Word)
  /-- CFG_REGOFF `H` (R226). -/
  | cfgRegoff (h : Header)
  /-- REG_READ `addr`, `cnt`, `region`, `ch` (R290). -/
  | regRead (addr cnt : Nat) (region : Half) (ch : Nat)
  /-- REG_WRITE `addr`, `data`, `region`, `ch` (R295). -/
  | regWrite (addr : Nat) (data : List Byte) (region : Half) (ch : Nat)
  /-- SESSION_INIT (R300). -/
  | sessionInit
  /-- `reg.read8 a, region` (R152). -/
  | regRead8 (a : Nat) (region : Half)
  /-- `reg.clrbits8 a, m, region` (R152). -/
  | regClrbits8 (a : Nat) (m : Byte) (region : Half)
  /-- `rx.resync` (R152). -/
  | rxResync
  /-- `rx.next` (R152). -/
  | rxNext
  /-- A STATUS word with the class nibbles S6..S0 (R101). -/
  | status (slots : BitVec 28)
  /-- The FILLER word (R104). -/
  | filler
  /-- A slot of class TLP_DATA; `b3` is the ignored bit 3 (R102, R103). -/
  | slotTlpData (b3 : BitVec 1)
  /-- A slot of class TLP_LAST (R103). -/
  | slotTlpLast (b3 : BitVec 1)
  /-- A slot of class NON_TLP with pattern 01; `hi` is bits 3..2 (R103). -/
  | slotNonTlp01 (hi : BitVec 2)
  /-- A slot of class NON_TLP with pattern 10 (R103). -/
  | slotNonTlp10 (hi : BitVec 2)
  /-- A slot of class NON_TLP with pattern 11 (R103). -/
  | slotNonTlp11 (hi : BitVec 2)
  /-- A register response word: address field, data byte at A, data byte at A + 1 (R127). -/
  | regresp (a : Half) (dA dA1 : Byte)
  /-- A register read record: region bits, pair address / 2, channel (R125, R291). -/
  | regRd (region : BitVec 2) (pair : BitVec 11) (ch : BitVec 2)
  /-- A register write record: data bytes, byte enables, region bits, pair address / 2, channel (R125, R296). -/
  | regWr (d0 d1 beLo beHi : Byte) (region : BitVec 2) (pair : BitVec 11) (ch : BitVec 2)
  /-- The transmit record of a TLP word that is not the last (R128). -/
  | txTlpWord (w : Word)
  /-- The transmit record of a TLP's last word (R128). -/
  | txTlpLast (w : Word)
  /-- A TLP leader word with Fmt 000; `rest` is its bits 28..0 (R231). -/
  | fmt3dwNodata (rest : BitVec 29)
  /-- Fmt 001 (R232). -/
  | fmt4dwNodata (rest : BitVec 29)
  /-- Fmt 010 (R233). -/
  | fmt3dwData (rest : BitVec 29)
  /-- Fmt 011 (R234). -/
  | fmt4dwData (rest : BitVec 29)
  /-- Fmt 100, a TLP prefix word (R235). -/
  | fmtPrefix (rest : BitVec 29)
  /-- Fmt 101, reserved (R236). -/
  | fmtRsvd101 (rest : BitVec 29)
  /-- Fmt 110, reserved (R236). -/
  | fmtRsvd110 (rest : BitVec 29)
  /-- Fmt 111, reserved (R236). -/
  | fmtRsvd111 (rest : BitVec 29)
  /-- MRd with a 32-bit address; `rest` is bits 23..0 (R112, R240). -/
  | mrd32 (rest : BitVec 24)
  /-- MRd with a 64-bit address (R240). -/
  | mrd64 (rest : BitVec 24)
  /-- MRdLk with a 32-bit address (R240). -/
  | mrdLk32 (rest : BitVec 24)
  /-- MRdLk with a 64-bit address (R240). -/
  | mrdLk64 (rest : BitVec 24)
  /-- MWr with a 32-bit address (R240). -/
  | mwr32 (rest : BitVec 24)
  /-- MWr with a 64-bit address (R240). -/
  | mwr64 (rest : BitVec 24)
  /-- IORd (R241). -/
  | iord (rest : BitVec 24)
  /-- IOWr (R241). -/
  | iowr (rest : BitVec 24)
  /-- CfgRd0 (R242). -/
  | cfgRd0 (rest : BitVec 24)
  /-- CfgWr0 (R242). -/
  | cfgWr0 (rest : BitVec 24)
  /-- CfgRd1 (R242). -/
  | cfgRd1 (rest : BitVec 24)
  /-- CfgWr1 (R242). -/
  | cfgWr1 (rest : BitVec 24)
  /-- Msg; `rest` is bits 26..0, the routing bits rrr first (R243). -/
  | msg (rest : BitVec 27)
  /-- MsgD (R243). -/
  | msgD (rest : BitVec 27)
  /-- Cpl (R244). -/
  | cpl (rest : BitVec 24)
  /-- CplD (R244). -/
  | cplD (rest : BitVec 24)
  /-- CplLk (R244). -/
  | cplLk (rest : BitVec 24)
  /-- CplDLk (R244). -/
  | cplDLk (rest : BitVec 24)
  /-- FetchAdd with a 32-bit address (R245). -/
  | fetchAdd32 (rest : BitVec 24)
  /-- FetchAdd with a 64-bit address (R245). -/
  | fetchAdd64 (rest : BitVec 24)
  /-- Swap with a 32-bit address (R245). -/
  | swap32 (rest : BitVec 24)
  /-- Swap with a 64-bit address (R245). -/
  | swap64 (rest : BitVec 24)
  /-- CAS with a 32-bit address (R245). -/
  | cas32 (rest : BitVec 24)
  /-- CAS with a 64-bit address (R245). -/
  | cas64 (rest : BitVec 24)
  /-- A local TLP prefix word; `rest` is bits 27..0 (R117, R246). -/
  | lprfx (rest : BitVec 28)
  /-- An end-to-end TLP prefix word (R117, R246). -/
  | eprfx (rest : BitVec 28)
  deriving DecidableEq, Repr

end Sys2Proof
end

