-- ==== Sys2Proof/WellFormed.lean ====
section
/-! DEFINITION. Which instructions the spec calls well-formed. The operands of the host operations are
unrestricted: an operand outside its legal values is answered by an outcome (R281), not excluded. Only the
register request records have contents that the block never emits (spec/30_encoding.md R126, R135;
spec/42_register_access.md R282). -/

namespace Sys2Proof

/-- The region bits of a flagged address name a region: 00, 10 or 11; 01 names none (R52). -/
abbrev regionBitsOk (region : BitVec 2) : Prop := region ≠ 0b01

/-- The channel flag of a register request is 1, 2 or 3 (R126). -/
abbrev channelBitsOk (ch : BitVec 2) : Prop := ch ≠ 0

/-- A byte enable the block writes: 0xFF, or 0x00 with the data byte 0 (R282). -/
abbrev enableOk (be d : Byte) : Prop := be = 0xFF ∨ (be = 0x00 ∧ d = 0x00)

/-- A write record enables at least one byte of its pair, since its pair meets the range (R282, R283). -/
abbrev someEnabled (beLo beHi : Byte) : Prop := beLo = 0xFF ∨ beHi = 0xFF

/-- The checks on an instruction's contents, by constructor. -/
def wellFormed (i : Instr) : Bool :=
  match i with
  | .regRd region _ ch => decide (regionBitsOk region) && decide (channelBitsOk ch)
  | .regWr d0 d1 beLo beHi region _ ch =>
    decide (regionBitsOk region) && decide (channelBitsOk ch) && decide (enableOk beLo d0) &&
      decide (enableOk beHi d1) && decide (someEnabled beLo beHi)
  | .rxDecode | .rxDiscard | .rxReset | .tlpHdrlen _ | .tlpDecode _ | .tlpEncode _ _ | .tlpSend _ _ => true
  | .cfgRegoff _ | .regRead _ _ _ _ | .regWrite _ _ _ _ | .sessionInit => true
  | .regRead8 _ _ | .regClrbits8 _ _ _ | .rxResync | .rxNext => true
  | .status _ | .filler | .slotTlpData _ | .slotTlpLast _ => true
  | .slotNonTlp01 _ | .slotNonTlp10 _ | .slotNonTlp11 _ | .regresp _ _ _ => true
  | .txTlpWord _ | .txTlpLast _ => true
  | .fmt3dwNodata _ | .fmt4dwNodata _ | .fmt3dwData _ | .fmt4dwData _ => true
  | .fmtPrefix _ | .fmtRsvd101 _ | .fmtRsvd110 _ | .fmtRsvd111 _ => true
  | .mrd32 _ | .mrd64 _ | .mrdLk32 _ | .mrdLk64 _ | .mwr32 _ | .mwr64 _ | .iord _ | .iowr _ => true
  | .cfgRd0 _ | .cfgWr0 _ | .cfgRd1 _ | .cfgWr1 _ | .msg _ | .msgD _ => true
  | .cpl _ | .cplD _ | .cplLk _ | .cplDLk _ => true
  | .fetchAdd32 _ | .fetchAdd64 _ | .swap32 _ | .swap64 _ | .cas32 _ | .cas64 _ => true
  | .lprfx _ | .eprfx _ => true

end Sys2Proof
end

