-- ==== Sys2Proof/Decode.lean ====
section
/-! DEFINITION. The decoder and, after it, the encoder. The block dispatches on units of several formats
(spec/30_encoding.md R100) whose encodings overlap, and its context says which format a unit has: a word is
a status word only where a status word is expected (R104), a nibble is a slot class only inside a group, a
record stands only in the transmit stream. So a unit to decode is a packet: its format and its words. -/

namespace Sys2Proof

/-- The formats of R100 that the opcode table has rows for. A TLP leader word (`TLPDW0`, `TLPPFX`) is
dispatched twice, on Fmt (R111) and on the pair of Fmt and Type (R112), hence two formats for it. -/
inductive Format where
  | hostCmd
  | rxStatus
  | slot
  | regReq
  | regResp
  | txTlp
  | tlpFmt
  | tlpType
  deriving DecidableEq, Repr

/-- A unit before the block. For `hostCmd` the words are the command code and then the operands as the
natural numbers they are (R150: "typed values passed with the command"; log entry 5); for every other
format there is one word, the unit's bits as one number. -/
structure Packet where
  fmt : Format
  words : List Nat
  deriving DecidableEq, Repr

/-- Why a packet spells no instruction. -/
inductive Reject where
  /-- The packet has no word. -/
  | emptyPacket
  /-- A host command code that the table of R150 does not hold. -/
  | unknownCode (code : Nat)
  /-- More operand words than the operation has operands. -/
  | operandCount
  /-- An operand word outside its operand's width. -/
  | operandRange
  /-- A word that is neither the filler word nor a status word (R135). -/
  | notStatus
  /-- A number that is no 4-bit slot class (R102). -/
  | notNibble
  /-- Eight bytes that are no register request record (R125, R126). -/
  | notRegReq
  /-- Eight bytes that are no TLP transmit record (R128). -/
  | notTxTlp
  /-- A pair of Fmt and Type that the table of R112 does not hold. -/
  | noTypeRow
  /-- A unit of the receive or transmit stream at the host command port, which spells no operation there (R50). -/
  | notHostCommand
  deriving DecidableEq, Repr

/-! ### Operand words of a host command -/

/-- Operand word `k`; a missing operand word reads as 0 (log entry 5). -/
def opWord (ops : List Nat) (k : Nat) : Nat := ops.getD k 0

/-- A 32-bit word operand. -/
def word32 (n : Nat) : Except Reject Word :=
  if n < 2 ^ 32 then .ok (BitVec.ofNat 32 n) else .error .operandRange

/-- A 16-bit operand. -/
def half16 (n : Nat) : Except Reject Half :=
  if n < 2 ^ 16 then .ok (BitVec.ofNat 16 n) else .error .operandRange

/-- A list of word operands. -/
def wordList : List Nat → Except Reject (List Word)
  | [] => .ok []
  | n :: ns => do
    let w ← word32 n
    let ws ← wordList ns
    return w :: ws

/-- A list of byte operands. -/
def byteList : List Nat → Except Reject (List Byte)
  | [] => .ok []
  | n :: ns => do
    let bs ← byteList ns
    if n < 2 ^ 8 then return BitVec.ofNat 8 n :: bs else .error .operandRange

/-- The header word count of a header operand: 0 for 3 words, 1 for 4. -/
def hdrWordsOf (n : Nat) : Except Reject HdrWords :=
  if n = 0 then .ok .dw3 else if n = 1 then .ok .dw4 else .error .operandRange

/-- A header operand: its four words and its word count (R43). -/
def headerOf (ops : List Nat) : Except Reject Header := do
  let w0 ← word32 (opWord ops 0)
  let w1 ← word32 (opWord ops 1)
  let w2 ← word32 (opWord ops 2)
  let w3 ← word32 (opWord ops 3)
  let hw ← hdrWordsOf (opWord ops 4)
  return ⟨w0, w1, w2, w3, hw⟩

/-- An operation with at most `k` operand words. -/
def arity (k : Nat) (ops : List Nat) (r : Except Reject Instr) : Except Reject Instr :=
  if ops.length ≤ k then r else .error .operandCount

/-- The operands of TLP_DECODE: the words of the list. -/
def decodeTlpDecode (ops : List Nat) : Except Reject Instr := do
  let ws ← wordList ops
  return .tlpDecode ws

/-- The operands of TLP_ENCODE: the header, then `cap`. -/
def decodeTlpEncode (ops : List Nat) : Except Reject Instr := do
  let h ← headerOf ops
  return .tlpEncode h (opWord ops 5)

/-- The operands of TLP_SEND: the header, then the tail words. -/
def decodeTlpSend (ops : List Nat) : Except Reject Instr := do
  let h ← headerOf ops
  let tail ← wordList (ops.drop 5)
  return .tlpSend h tail

/-- The operand of CFG_REGOFF: the header. -/
def decodeCfgRegoff (ops : List Nat) : Except Reject Instr := do
  let h ← headerOf ops
  return .cfgRegoff h

/-- The operands of REG_READ: `addr`, `cnt`, `region`, `ch`. -/
def decodeRegRead (ops : List Nat) : Except Reject Instr := do
  let region ← half16 (opWord ops 2)
  return .regRead (opWord ops 0) (opWord ops 1) region (opWord ops 3)

/-- The operands of REG_WRITE: `addr`, `region`, `ch`, then the data bytes. -/
def decodeRegWrite (ops : List Nat) : Except Reject Instr := do
  let region ← half16 (opWord ops 1)
  let data ← byteList (ops.drop 3)
  return .regWrite (opWord ops 0) data region (opWord ops 2)

/-- The operand of TLP_HDRLEN: the word. -/
def decodeTlpHdrlen (ops : List Nat) : Except Reject Instr := do
  let w ← word32 (opWord ops 0)
  return .tlpHdrlen w

/-- A host command by its 8-bit code (R150); a code outside the table spells no operation. -/
def decodeHostCmd (code : Nat) (ops : List Nat) : Except Reject Instr :=
  if code = 0x01 then arity 0 ops (.ok .rxDecode)
  else if code = 0x02 then arity 0 ops (.ok .rxDiscard)
  else if code = 0x03 then arity 0 ops (.ok .rxReset)
  else if code = 0x10 then arity 1 ops (decodeTlpHdrlen ops)
  else if code = 0x11 then decodeTlpDecode ops
  else if code = 0x12 then arity 6 ops (decodeTlpEncode ops)
  else if code = 0x13 then decodeTlpSend ops
  else if code = 0x14 then arity 5 ops (decodeCfgRegoff ops)
  else if code = 0x20 then arity 4 ops (decodeRegRead ops)
  else if code = 0x21 then decodeRegWrite ops
  else if code = 0x30 then arity 0 ops (.ok .sessionInit)
  else .error (.unknownCode code)

/-! ### Wire units -/

/-- The unit's bits, when the packet holds one word below the bound. -/
def oneWord (bound : Nat) (e : Reject) (ws : List Nat) : Except Reject Nat :=
  match ws with
  | [] => .error .emptyPacket
  | n :: rest => if rest.isEmpty && decide (n < bound) then .ok n else .error e

/-- A word where a status word is expected (R104 before R101: the filler word is tested first, R162). -/
def decodeRxStatus (v : Word) : Except Reject Instr :=
  if v = Lit.fillerWord then .ok .filler
  else if markOf v = Lit.statusMarker then .ok (.status (v.extractLsb' 0 28))
  else .error .notStatus

/-- A slot class nibble (R102, R103): bits 1..0 decide, bit 2 marks the last word of a TLP. -/
def decodeSlot (s : Nibble) : Instr :=
  if s.extractLsb' 0 2 = 0b00 then
    if s.extractLsb' 2 1 = 1 then .slotTlpLast (s.extractLsb' 3 1) else .slotTlpData (s.extractLsb' 3 1)
  else if s.extractLsb' 0 2 = 0b01 then .slotNonTlp01 (s.extractLsb' 2 2)
  else if s.extractLsb' 0 2 = 0b10 then .slotNonTlp10 (s.extractLsb' 2 2)
  else .slotNonTlp11 (s.extractLsb' 2 2)

/-- The bits that every register request record has fixed: the trailer, the address bits 13..12 and bit 0
(R125, R53). -/
def regReqFixedOk (r : Rec) : Bool :=
  decide (r.extractLsb' 0 8 = Lit.recTrailer) && decide (r.extractLsb' 28 2 = 0) &&
    decide (r.extractLsb' 16 1 = 0)

/-- Bits 7..2 of a register command byte, those above the channel (R126). -/
def cmdBits (cmd : Byte) : BitVec 6 := cmd.extractLsb' 2 6

/-- A register request record by its command byte (R125, R126). -/
def decodeRegReq (r : Rec) : Except Reject Instr :=
  if regReqFixedOk r then
    if r.extractLsb' 10 6 = cmdBits Lit.cmdRead ∧ r.extractLsb' 32 32 = 0 then
      .ok (.regRd (r.extractLsb' 30 2) (r.extractLsb' 17 11) (r.extractLsb' 8 2))
    else if r.extractLsb' 10 6 = cmdBits Lit.cmdWrite then
      .ok (.regWr (recByte r 0) (recByte r 1) (recByte r 2) (recByte r 3)
        (r.extractLsb' 30 2) (r.extractLsb' 17 11) (r.extractLsb' 8 2))
    else .error .notRegReq
  else .error .notRegReq

/-- A register response word, selected by its slot nibble and not by its bits (R127). -/
def decodeRegResp (w : Word) : Instr :=
  .regresp (w.extractLsb' 16 16) (byteOf w 2) (byteOf w 3)

/-- Bytes 4 to 7 of a TLP transmit record: two zero bytes, the byte that marks the last word, the trailer
(R128). -/
def txTlpLow (last : Bool) : BitVec 32 := 0#16 ++ (if last then Lit.txLastCmd else 0#8) ++ Lit.recTrailer

/-- A TLP transmit record (R128). -/
def decodeTxTlp (r : Rec) : Except Reject Instr :=
  if r.extractLsb' 0 32 = txTlpLow false then .ok (.txTlpWord (r.extractLsb' 32 32))
  else if r.extractLsb' 0 32 = txTlpLow true then .ok (.txTlpLast (r.extractLsb' 32 32))
  else .error .notTxTlp

/-- A TLP leader word by its Fmt, bits 31..29 (R111). -/
def decodeTlpFmt (w : Word) : Instr :=
  let rest := w.extractLsb' 0 29
  let f := w.extractLsb' 29 3
  if f = 0b000 then .fmt3dwNodata rest
  else if f = 0b001 then .fmt4dwNodata rest
  else if f = 0b010 then .fmt3dwData rest
  else if f = 0b011 then .fmt4dwData rest
  else if f = 0b100 then .fmtPrefix rest
  else if f = 0b101 then .fmtRsvd101 rest
  else if f = 0b110 then .fmtRsvd110 rest
  else .fmtRsvd111 rest

/-- A TLP leader word by its byte 0, the pair of Fmt and Type in bits 31..24 (R112). -/
def decodeTlpType (w : Word) : Except Reject Instr :=
  let b := w.extractLsb' 24 8
  let rest := w.extractLsb' 0 24
  if b = 0x00 then .ok (.mrd32 rest)
  else if b = 0x20 then .ok (.mrd64 rest)
  else if b = 0x01 then .ok (.mrdLk32 rest)
  else if b = 0x21 then .ok (.mrdLk64 rest)
  else if b = 0x40 then .ok (.mwr32 rest)
  else if b = 0x60 then .ok (.mwr64 rest)
  else if b = 0x02 then .ok (.iord rest)
  else if b = 0x42 then .ok (.iowr rest)
  else if b = 0x04 then .ok (.cfgRd0 rest)
  else if b = 0x44 then .ok (.cfgWr0 rest)
  else if b = 0x05 then .ok (.cfgRd1 rest)
  else if b = 0x45 then .ok (.cfgWr1 rest)
  else if b = 0x0A then .ok (.cpl rest)
  else if b = 0x4A then .ok (.cplD rest)
  else if b = 0x0B then .ok (.cplLk rest)
  else if b = 0x4B then .ok (.cplDLk rest)
  else if b = 0x4C then .ok (.fetchAdd32 rest)
  else if b = 0x6C then .ok (.fetchAdd64 rest)
  else if b = 0x4D then .ok (.swap32 rest)
  else if b = 0x6D then .ok (.swap64 rest)
  else if b = 0x4E then .ok (.cas32 rest)
  else if b = 0x6E then .ok (.cas64 rest)
  else if w.extractLsb' 27 5 = 0b00110 then .ok (.msg (w.extractLsb' 0 27))
  else if w.extractLsb' 27 5 = 0b01110 then .ok (.msgD (w.extractLsb' 0 27))
  else if w.extractLsb' 28 4 = 0x8 then .ok (.lprfx (w.extractLsb' 0 28))
  else if w.extractLsb' 28 4 = 0x9 then .ok (.eprfx (w.extractLsb' 0 28))
  else .error .noTypeRow

/-- The decoder: total on every packet, rejecting by name. -/
def decode (p : Packet) : Except Reject Instr :=
  match p.fmt with
  | .hostCmd =>
    match p.words with
    | [] => .error .emptyPacket
    | code :: ops => decodeHostCmd code ops
  | .rxStatus => do decodeRxStatus (BitVec.ofNat 32 (← oneWord (2 ^ 32) .notStatus p.words))
  | .slot => do return decodeSlot (BitVec.ofNat 4 (← oneWord (2 ^ 4) .notNibble p.words))
  | .regReq => do decodeRegReq (BitVec.ofNat 64 (← oneWord (2 ^ 64) .notRegReq p.words))
  | .regResp => do return decodeRegResp (BitVec.ofNat 32 (← oneWord (2 ^ 32) .operandRange p.words))
  | .txTlp => do decodeTxTlp (BitVec.ofNat 64 (← oneWord (2 ^ 64) .notTxTlp p.words))
  | .tlpFmt => do return decodeTlpFmt (BitVec.ofNat 32 (← oneWord (2 ^ 32) .operandRange p.words))
  | .tlpType => do decodeTlpType (BitVec.ofNat 32 (← oneWord (2 ^ 32) .noTypeRow p.words))

/-! ### The encoder -/

/-- The operand words of a header (log entry 5). -/
def headerWords (h : Header) : List Nat :=
  [h.w0.toNat, h.w1.toNat, h.w2.toNat, h.w3.toNat, match h.hw with | .dw3 => 0 | .dw4 => 1]

/-- A host command packet. -/
def hostPacket (code : Nat) (ops : List Nat) : Packet := ⟨.hostCmd, code :: ops⟩

/-- The bits 31..0 of a register request record: the flagged pair address, the command byte and the
trailer (R125, R126). -/
def regReqLow (cmd : Byte) (region : BitVec 2) (pair : BitVec 11) (ch : BitVec 2) : BitVec 32 :=
  region ++ 0#2 ++ pair ++ 0#1 ++ cmdBits cmd ++ ch ++ Lit.recTrailer

/-- The record of a register read request (R291). -/
def regRdRec (region : BitVec 2) (pair : BitVec 11) (ch : BitVec 2) : Rec :=
  0#32 ++ regReqLow Lit.cmdRead region pair ch

/-- The record of a register write request (R296). -/
def regWrRec (d0 d1 beLo beHi : Byte) (region : BitVec 2) (pair : BitVec 11) (ch : BitVec 2) : Rec :=
  (d0 ++ d1 ++ beLo ++ beHi) ++ regReqLow Lit.cmdWrite region pair ch

/-- The transmit record of a TLP word: its bytes, then the rest of the record (R128). -/
def txTlpRec (w : Word) (last : Bool) : Rec := w ++ txTlpLow last

/-- The packet of a TLP leader word. -/
def leaderPacket (f : Format) (w : Word) : Packet := ⟨f, [w.toNat]⟩

/-- The packet of an instruction, from the same tables; `none` for the four pseudo-instructions, which
have no encoding of their own and stand for host commands (R152). -/
def encode (i : Instr) : Option Packet :=
  match i with
  | .rxDecode => some (hostPacket 0x01 [])
  | .rxDiscard => some (hostPacket 0x02 [])
  | .rxReset => some (hostPacket 0x03 [])
  | .tlpHdrlen w => some (hostPacket 0x10 [w.toNat])
  | .tlpDecode ws => some (hostPacket 0x11 (ws.map BitVec.toNat))
  | .tlpEncode h cap => some (hostPacket 0x12 (headerWords h ++ [cap]))
  | .tlpSend h tail => some (hostPacket 0x13 (headerWords h ++ tail.map BitVec.toNat))
  | .cfgRegoff h => some (hostPacket 0x14 (headerWords h))
  | .regRead addr cnt region ch => some (hostPacket 0x20 [addr, cnt, region.toNat, ch])
  | .regWrite addr data region ch =>
    some (hostPacket 0x21 ([addr, region.toNat, ch] ++ data.map BitVec.toNat))
  | .sessionInit => some (hostPacket 0x30 [])
  | .regRead8 _ _ | .regClrbits8 _ _ _ | .rxResync | .rxNext => none
  | .status slots => some ⟨.rxStatus, [(Lit.statusMarker ++ slots : Word).toNat]⟩
  | .filler => some ⟨.rxStatus, [Lit.fillerWord.toNat]⟩
  | .slotTlpData b3 => some ⟨.slot, [(b3 ++ 0b000#3 : Nibble).toNat]⟩
  | .slotTlpLast b3 => some ⟨.slot, [(b3 ++ 0b100#3 : Nibble).toNat]⟩
  | .slotNonTlp01 hi => some ⟨.slot, [(hi ++ 0b01#2 : Nibble).toNat]⟩
  | .slotNonTlp10 hi => some ⟨.slot, [(hi ++ 0b10#2 : Nibble).toNat]⟩
  | .slotNonTlp11 hi => some ⟨.slot, [(hi ++ 0b11#2 : Nibble).toNat]⟩
  | .regresp a dA dA1 => some ⟨.regResp, [(a ++ dA ++ dA1 : Word).toNat]⟩
  | .regRd region pair ch => some ⟨.regReq, [(regRdRec region pair ch).toNat]⟩
  | .regWr d0 d1 beLo beHi region pair ch =>
    some ⟨.regReq, [(regWrRec d0 d1 beLo beHi region pair ch).toNat]⟩
  | .txTlpWord w => some ⟨.txTlp, [(txTlpRec w false).toNat]⟩
  | .txTlpLast w => some ⟨.txTlp, [(txTlpRec w true).toNat]⟩
  | .fmt3dwNodata rest => some (leaderPacket .tlpFmt (0b000#3 ++ rest))
  | .fmt4dwNodata rest => some (leaderPacket .tlpFmt (0b001#3 ++ rest))
  | .fmt3dwData rest => some (leaderPacket .tlpFmt (0b010#3 ++ rest))
  | .fmt4dwData rest => some (leaderPacket .tlpFmt (0b011#3 ++ rest))
  | .fmtPrefix rest => some (leaderPacket .tlpFmt (0b100#3 ++ rest))
  | .fmtRsvd101 rest => some (leaderPacket .tlpFmt (0b101#3 ++ rest))
  | .fmtRsvd110 rest => some (leaderPacket .tlpFmt (0b110#3 ++ rest))
  | .fmtRsvd111 rest => some (leaderPacket .tlpFmt (0b111#3 ++ rest))
  | .mrd32 rest => some (leaderPacket .tlpType (0x00#8 ++ rest))
  | .mrd64 rest => some (leaderPacket .tlpType (0x20#8 ++ rest))
  | .mrdLk32 rest => some (leaderPacket .tlpType (0x01#8 ++ rest))
  | .mrdLk64 rest => some (leaderPacket .tlpType (0x21#8 ++ rest))
  | .mwr32 rest => some (leaderPacket .tlpType (0x40#8 ++ rest))
  | .mwr64 rest => some (leaderPacket .tlpType (0x60#8 ++ rest))
  | .iord rest => some (leaderPacket .tlpType (0x02#8 ++ rest))
  | .iowr rest => some (leaderPacket .tlpType (0x42#8 ++ rest))
  | .cfgRd0 rest => some (leaderPacket .tlpType (0x04#8 ++ rest))
  | .cfgWr0 rest => some (leaderPacket .tlpType (0x44#8 ++ rest))
  | .cfgRd1 rest => some (leaderPacket .tlpType (0x05#8 ++ rest))
  | .cfgWr1 rest => some (leaderPacket .tlpType (0x45#8 ++ rest))
  | .cpl rest => some (leaderPacket .tlpType (0x0A#8 ++ rest))
  | .cplD rest => some (leaderPacket .tlpType (0x4A#8 ++ rest))
  | .cplLk rest => some (leaderPacket .tlpType (0x0B#8 ++ rest))
  | .cplDLk rest => some (leaderPacket .tlpType (0x4B#8 ++ rest))
  | .fetchAdd32 rest => some (leaderPacket .tlpType (0x4C#8 ++ rest))
  | .fetchAdd64 rest => some (leaderPacket .tlpType (0x6C#8 ++ rest))
  | .swap32 rest => some (leaderPacket .tlpType (0x4D#8 ++ rest))
  | .swap64 rest => some (leaderPacket .tlpType (0x6D#8 ++ rest))
  | .cas32 rest => some (leaderPacket .tlpType (0x4E#8 ++ rest))
  | .cas64 rest => some (leaderPacket .tlpType (0x6E#8 ++ rest))
  | .msg rest => some (leaderPacket .tlpType (0b00110#5 ++ rest))
  | .msgD rest => some (leaderPacket .tlpType (0b01110#5 ++ rest))
  | .lprfx rest => some (leaderPacket .tlpType (0x8#4 ++ rest))
  | .eprfx rest => some (leaderPacket .tlpType (0x9#4 ++ rest))

/-! ### The table's numbering -/

/-- The codes of the host command table (R150). -/
def isHostCode (n : Nat) : Bool :=
  [0x01, 0x02, 0x03, 0x10, 0x11, 0x12, 0x13, 0x14, 0x20, 0x21, 0x30].contains n

/-- The packet that stands for bits given without a format, as the opcode table gives them (log entry 6):
up to 8 bits are a host command code if the table of R150 holds it and else a slot nibble; up to 32 bits
are a filler or status word, or the low half of a transmit record, or a TLP leader word; up to 64 bits are
a register request record if they decode as one and else a transmit record. -/
def tablePacket (nbits w : Nat) : Packet :=
  if nbits ≤ 8 then
    if isHostCode w then ⟨.hostCmd, [w]⟩ else ⟨.slot, [w]⟩
  else if nbits ≤ 32 then
    let v := BitVec.ofNat 32 w
    if (decodeRxStatus v).isOk then ⟨.rxStatus, [w]⟩
    else if (decodeTxTlp (BitVec.ofNat 64 w)).isOk then ⟨.txTlp, [w]⟩
    else if (decodeRegReq (BitVec.ofNat 64 w)).isOk then ⟨.regReq, [w]⟩
    else if (decodeTlpType v).isOk then ⟨.tlpType, [w]⟩
    else ⟨.tlpFmt, [w]⟩
  else if (decodeRegReq (BitVec.ofNat 64 w)).isOk then ⟨.regReq, [w]⟩
  else ⟨.txTlp, [w]⟩

/-- The instruction the decoder reads from an instruction whose bits are `w`, numbered as
spec/opcode_table.json numbers them. -/
def decodeTableWord (nbits w : Nat) : Option Instr := (decode (tablePacket nbits w)).toOption

end Sys2Proof
end

