-- ==== Sys2Proof/Machine/State.lean ====
section
/-! DEFINITION. The state of the block as plain data (spec/10_state.md), its environment's draws and its
ports as data beside it, the reasons a step can stop, and the state after reset (spec/10_state.md R60,
spec/70_reset_and_hazards.md R381). -/

namespace Sys2Proof.Machine

/-! ### Memory spaces -/

/-- A byte space (R70): the listed cells, addresses strictly rising, no listed cell equal to what an
unlisted address reads as, which is 0x00 (DESIGN CHOICE, log entry 7). -/
abbrev Memory := List Host.Cell

/-- What an unlisted address of a byte space reads as (DESIGN CHOICE, log entry 7; unsafe). -/
def memDefault : Byte := 0

/-- The canonical form of a byte space. -/
abbrev Memory.wf (m : Memory) : Prop :=
  m.Pairwise (fun c d => c.1 < d.1) ∧ ∀ c ∈ m, c.2 ≠ memDefault

/-! ### The receiver -/

/-- `S.st` (R31). -/
inductive RxState where
  | awaitingStatus
  | inData
  | inRemainder
  | tlpComplete
  deriving DecidableEq, Repr

/-- `S.exp` (R30, R35). -/
inductive Expected where
  | unknown
  | known (k : Nat)
  | invalid
  deriving DecidableEq, Repr

/-- The receiver state `S` (R30). -/
structure Receiver where
  /-- `S.st`. -/
  st : RxState
  /-- `S.sf`, the pending status field (R32). -/
  sf : Word
  /-- `S.slot`, 0..7 (R33). -/
  slot : Nat
  /-- `S.acc`, `ACC_CAP` words (R34). -/
  acc : List Word
  /-- `S.n`. -/
  n : Nat
  /-- `S.pfx`. -/
  pfx : Nat
  /-- `S.exp`. -/
  exp : Expected
  /-- `S.ovf` (R36), the block's only flag (R42). -/
  ovf : Bool
  /-- `S.rxbuf`, the raw transfer buffer: the byte space `RXBUF` (R70, R71). -/
  rxbuf : Memory
  /-- `S.rd`, the receive cursor in words (R37). -/
  rd : Nat
  /-- `S.end`, the words available (R37). -/
  lim : Nat
  /-- `S.retries` (R38). -/
  retries : Nat
  deriving DecidableEq, Repr

/-! ### Values returned to the host -/

/-- The result of TLP_HDRLEN (R221): the word is a prefix, or a header with its word count, payload
length, digest count and total, or invalid. -/
inductive HdrLen where
  | prefixWord
  | header (hw : HdrWords) (pay d total : Nat)
  | invalid
  deriving DecidableEq, Repr

/-- The reasons of Corrupt (R341). -/
inductive CorruptReason where
  | lengthMismatch
  | overflow
  | invalidHeader
  | noHeader
  | retryExhausted
  deriving DecidableEq, Repr

/-- The codec's results (R342). -/
inductive CodecStatus where
  | ok
  | truncated
  | invalidFormat
  | bufferTooSmall
  | lengthMismatch
  | transportError
  deriving DecidableEq, Repr

/-- The register results (R343). -/
inductive RegStatus where
  | ok
  | rangeError
  | badOperand
  | transportError
  | incomplete
  deriving DecidableEq, Repr

/-- The fatal codes of a session (R344). -/
inductive FatalCode where
  | versionReadFailed
  | versionMismatch
  | filterClearFailure
  deriving DecidableEq, Repr

/-- `S.session` (R46). -/
inductive Session where
  | uninit
  | ready
  | fatal (code : FatalCode)
  deriving DecidableEq, Repr

/-- What TLP_DECODE delivers on success (R223): the header, the prefix words skipped, the index of the
first payload word, the payload length. -/
structure Decoded where
  h : Header
  pfx : Nat
  poff : Nat
  plen : Nat
  deriving DecidableEq, Repr

/-- The field view that the type group of a leader word selects (R112, R240-R246). -/
inductive View where
  /-- Memory request: word 1 is REQDW1, the rest MEMADDR (R240). -/
  | memReq
  /-- I/O request: word 1 is REQDW1, word 2 MEMADDR (R241). -/
  | ioReq
  /-- Configuration request: word 1 is REQDW1, word 2 CFGDW2 (R242). -/
  | cfgReq
  /-- Message: word 1 is REQDW1 with the message code in bits 7..0 (R243). -/
  | message
  /-- Completion: words 1 and 2 are CPLDW1 and CPLDW2 (R244). -/
  | completion
  /-- Atomic operation: word 1 is REQDW1, the rest MEMADDR (R245). -/
  | atomicReq
  /-- Prefix: one word, TLPPFX (R246). -/
  | prefixView
  deriving DecidableEq, Repr

/-- One outcome on the host command port (R340-R344, R150). -/
inductive Reply where
  /-- NoData. -/
  | noData
  /-- OutOfSync. -/
  | outOfSync
  /-- Complete(d). -/
  | complete (d : List Word)
  /-- Corrupt(reason, d). -/
  | corrupt (r : CorruptReason) (d : List Word)
  /-- The Ok of RX_DISCARD and RX_RESET. -/
  | ok
  /-- The value of TLP_HDRLEN. -/
  | hdrLen (r : HdrLen)
  /-- The length function's value for a leader word and the view its type selects. -/
  | tlpView (r : HdrLen) (v : View)
  /-- TLP_DECODE: Ok with the decoded structure, or an error. -/
  | decoded (r : Except CodecStatus Decoded)
  /-- TLP_ENCODE: Ok(next), or an error. -/
  | encoded (r : Except CodecStatus Nat)
  /-- TLP_SEND. -/
  | sent (r : CodecStatus)
  /-- CFG_REGOFF. -/
  | regOff (o : BitVec 12)
  /-- REG_READ: status and output bytes. -/
  | regRead (r : RegStatus) (out : List Byte)
  /-- REG_WRITE. -/
  | regWrite (r : RegStatus)
  /-- SESSION_INIT: Ready or Fatal(code). -/
  | session (x : Session)
  deriving DecidableEq, Repr

/-! ### The register transaction -/

/-- `T.phase` (R44, R45). -/
inductive Phase where
  | idle
  | issue
  | wait
  | harvest
  | done
  deriving DecidableEq, Repr

/-- What a register transaction's result goes to: the host, the write of `reg.clrbits8` (R152), or the
next step of SESSION_INIT (R300). The model's own field (log entry 8). -/
inductive Cont where
  | host
  | clrBits (a : Nat) (m : Byte) (region : Half)
  | sessVersion
  | sessFilterRead
  | sessFilterWrite
  deriving DecidableEq, Repr

/-- The register transaction state `T` (R44), with the operands of the call (R280). -/
structure Txn where
  /-- `T.phase`. -/
  phase : Phase
  /-- The call is a REG_WRITE. -/
  isWrite : Bool
  /-- The operand `addr`. -/
  addr : Nat
  /-- The operand `cnt`. -/
  cnt : Nat
  /-- The operand `data` of a REG_WRITE. -/
  data : List Byte
  /-- The operand `region`. -/
  region : Half
  /-- The operand `ch`. -/
  ch : Nat
  /-- `T.recs`. -/
  recs : List Rec
  /-- How many records have been put into a batch so far (R284). -/
  put : Nat
  /-- The bytes of the batch not yet written (R284). -/
  batch : List Byte
  /-- `T.out`. -/
  out : List Byte
  /-- `T.got`. -/
  got : List Bool
  /-- `T.k`. -/
  k : Nat
  /-- `T.buf`. -/
  buf : List Byte
  /-- The response words of `T.buf` that the scan has matched and not yet placed (R285, R287). -/
  pend : List Word
  /-- The result, once the phase is Done. -/
  result : RegStatus
  /-- What the result goes to. -/
  cont : Cont
  deriving DecidableEq, Repr

/-- No transaction (R44: nothing of one persists). -/
def Txn.none : Txn where
  phase := .idle
  isWrite := false
  addr := 0
  cnt := 0
  data := []
  region := 0
  ch := 0
  recs := []
  put := 0
  batch := []
  out := []
  got := []
  k := 0
  buf := []
  pend := []
  result := .ok
  cont := .host

/-! ### The ports and the environment -/

/-- What a `TransportRead` returns (R15). -/
inductive ReadAnswer where
  | bytes (bs : List Byte)
  | tErr
  deriving DecidableEq, Repr

/-- What a `TransportWrite` returns (R15). With `TErr` the environment also draws how many of the bytes
went out before the error, which the spec does not state (log entry 9). -/
inductive WriteAnswer where
  | ok
  | tErr (taken : Nat)
  deriving DecidableEq, Repr

/-- One event at the transport ports, in the order they happen (R90, R91, R397). -/
inductive PortEvent where
  /-- A TransportWrite of these bytes that returned Ok. -/
  | wrote (bs : List Byte)
  /-- A TransportWrite that returned TErr after these bytes went out. -/
  | writeFailed (bs : List Byte)
  /-- A wait of so many milliseconds (R21). -/
  | delayed (ms : Nat)
  /-- A TransportRead and its answer. -/
  | didRead (a : ReadAnswer)
  deriving DecidableEq, Repr

/-- The operation in progress (R8, R358; log entry 1). Between host operations it is `idle`. -/
inductive Ctl where
  /-- No operation: the block waits for the host. -/
  | idle
  /-- Inside RX_DECODE; `again` says that it is the loop of `rx.next` (R152). -/
  | rx (again : Bool)
  /-- Inside TLP_SEND, with the words not yet framed; none left means that the frame is due to be written. -/
  | send (ws : List Word)
  /-- Inside a register transaction. -/
  | reg
  deriving DecidableEq, Repr

/-- The machine: the block's state, and as data beside it what its ports hold. -/
structure State where
  /-- The parameters of R10; no step changes them. -/
  cfg : Params
  /-- The receiver state `S` (R30). -/
  rx : Receiver
  /-- `S.session` (R46). -/
  session : Session
  /-- The register transaction `T` (R44). -/
  txn : Txn
  /-- The model's own: the operation in progress (log entry 1). -/
  ctl : Ctl
  /-- Host command port, inward: the packets not yet taken, the oldest first (R50, R90). -/
  port : List Packet
  /-- Host command port, outward: the outcomes returned, the latest last (R340-R344). -/
  replies : List Reply
  /-- Diagnostic port: what was offered, the latest last (R349). -/
  diag : List (CorruptReason × List Word)
  /-- Transport ports: what has crossed them, the latest last; its writes are `TXSTREAM` (R70, R91). -/
  trace : List PortEvent
  /-- The environment's draws: the answers of the coming TransportReads, the next first (R15, R20). -/
  rxFeed : List ReadAnswer
  /-- The environment's draws: the answers of the coming TransportWrites, the next first (R15, R20); where none
  is listed the answer is a free value (log entry 9), for a write does not wait (R358). -/
  txFeed : List WriteAnswer
  /-- Inside TLP_SEND: the bytes framed so far (R225). -/
  txFrame : List Byte
  /-- `HOSTMEM`: the destination buffer `dst` of TLP_ENCODE, from address 0 (R70, R224). -/
  hostMem : Memory
  /-- The model's own: how many free values have been drawn (log entries 4, 9). -/
  draws : Nat
  deriving DecidableEq, Repr

/-- One dispatch of an operation in progress: it went on to a state, or it waits for the transport. -/
inductive Tick where
  | go (s : State)
  | waits (s : State)
  deriving Repr

/-- The state a dispatch leads to. -/
def Tick.state : Tick → State
  | .go s => s
  | .waits s => s

/-- The reasons a step stops with a fault. -/
inductive Fault where
  /-- Raised by `step` once the session is Fatal: the run has ended and there is no step (R46, R303, I22:
  stuck). Safe: it is what the spec says. -/
  | afterFatal
  /-- Raised by a dispatch that would fetch through a receive cursor outside the raw transfer buffer, an
  address R70 does not have. Safe: R37 and R40 rule such a cursor out, so no run meets it. -/
  | cursorOutsideBuffer
  deriving DecidableEq, Repr

/-- The reasons a step refuses. -/
inductive Refusal where
  /-- Raised by `exec` for an instruction that has no meaning yet. Safe: nothing is claimed of it. -/
  | notModelled (mnemonic : String)
  /-- Raised by `step` for a packet that spells no instruction (R150: "Codes not in the table spell no
  operation. A model refuses them."). Safe: the packet has no effect. -/
  | undecodable (r : Reject)
  deriving DecidableEq, Repr

/-! ### Reset -/

/-- The receiver right after reset (R60), for an accumulator of `cap` words. The contents of `acc` and
`rxbuf` are unspecified there and never read; zero is a DESIGN CHOICE (log entry 7). -/
def Receiver.reset (cap : Nat) : Receiver where
  st := .awaitingStatus
  sf := 0
  slot := 0
  acc := List.replicate cap 0
  n := 0
  pfx := 0
  exp := .unknown
  ovf := false
  rxbuf := []
  rd := 0
  lim := 0
  retries := 0

/-- The machine right after a receiver instance is created (R60, R380, R381): every field as R60 says, no
transaction, the reference parameters, and nothing at the ports. -/
def State.reset : State where
  cfg := Params.reference
  rx := Receiver.reset Params.reference.accCap
  session := .uninit
  txn := Txn.none
  ctl := .idle
  port := []
  replies := []
  diag := []
  trace := []
  rxFeed := []
  txFeed := []
  txFrame := []
  hostMem := []
  draws := 0

end Sys2Proof.Machine
end

