-- ==== Sys2Proof/Machine/Flags.lean ====
section
/-! DEFINITION. The slot classes, which decide what the receiver does with a word, and the block's only
flag, `S.ovf` (spec/30_encoding.md R102, R103; spec/10_state.md R36, R42; spec/40_deinterleaver.md R167). -/

namespace Sys2Proof.Machine

/-- `isTlp(s)`: the two pattern bits are 00 (R103; C1 of spec/90_conflicts.md). -/
def isTlp (s : Nibble) : Bool := decide (s.extractLsb' 0 2 = 0b00)

/-- `isLast(s)`: bits 2..0 are 100 (R103). Bit 3 is ignored (R102). -/
def isLast (s : Nibble) : Bool := decide (s.extractLsb' 0 3 = 0b100)

/-- `S.sf[3:0]`, the class of the next data slot (R32). -/
def slotNibble (r : Receiver) : Nibble := nib r.sf 0

/-- NextDataState: InData when the next slot is a TLP slot and the overflow flag is clear (R167). -/
def nextDataState (r : Receiver) : RxState :=
  if isTlp (slotNibble r) && !r.ovf then .inData else .inRemainder

/-- The state StepComplete leaves: by the next slot's class alone (R170). -/
def stateAfterComplete (r : Receiver) : RxState :=
  if isTlp (slotNibble r) then .inData else .inRemainder

/-- The reason for which a TLP that has ended is corrupt, in the order of R345; `none` when its words are
exactly those its header declares (R170). -/
def corruptReason (r : Receiver) : Option CorruptReason :=
  if r.ovf then some .overflow
  else
    match r.exp with
    | .invalid => some .invalidHeader
    | .unknown => some .noHeader
    | .known k => if k = r.n then none else some .lengthMismatch

end Sys2Proof.Machine
end

