-- ==== Sys2Proof/Machine/Memory.lean ====
section
/-! DEFINITION. The operations on a byte space (spec/20_memory.md R70, R71): reading one byte, and storing
consecutive bytes, which keeps the canonical form. -/

namespace Sys2Proof.Machine

/-- One byte of a byte space. -/
def Memory.read (m : Memory) (a : Nat) : Byte :=
  match m with
  | [] => memDefault
  | c :: rest => if c.1 = a then c.2 else Memory.read rest a

/-- The cells of consecutive bytes from `a` on, without those an unlisted address reads as anyway. -/
def Memory.cells (a : Nat) (bs : List Byte) : Memory :=
  match bs with
  | [] => []
  | b :: rest =>
    if b = memDefault then Memory.cells (a + 1) rest else (a, b) :: Memory.cells (a + 1) rest

/-- `MemWrite(space, a, n, v)` (R14): the bytes `bs` at the addresses from `a` on; every other address keeps
its byte. -/
def Memory.store (m : Memory) (a : Nat) (bs : List Byte) : Memory :=
  m.filter (fun c => c.1 < a) ++ (Memory.cells a bs ++ m.filter (fun c => a + bs.length ≤ c.1))

end Sys2Proof.Machine
end

