-- ==== Sys2Proof/Machine/Operands.lean ====
section
/-! DEFINITION. Operand assembly and the length function: spec/30_encoding.md R119-R122, R140;
spec/41_tlp_codec.md R220-R222; spec/42_register_access.md R280-R283. -/

namespace Sys2Proof.Machine

/-! ### TLP leader words -/

/-- `fmt(w)`, bits 31..29 (R220, R110). -/
def fmtOf (w : Word) : BitVec 3 := w.extractLsb' 29 3

/-- `td(w)`, bit 15, as the number of digest words (R220, R121). -/
def tdOf (w : Word) : Nat := (w.extractLsb' 15 1).toNat

/-- `paylen(w)`: the Length field in dwords, 0 meaning 1024 (R119). -/
def paylen (w : Word) : Nat :=
  if w.extractLsb' 0 10 = 0 then 1024 else (w.extractLsb' 0 10).toNat

/-- The header word count a header value or a format says (R43, R111). -/
def hdrCount (hw : HdrWords) : Nat :=
  match hw with
  | .dw3 => 3
  | .dw4 => 4

/-- The header word count by bit 0 of Fmt (R111, R221). -/
def hdrWordsOfFmt (f : BitVec 3) : HdrWords := if f.getLsbD 0 then .dw4 else .dw3

/-- The payload length by bit 1 of Fmt (R111, R221). -/
def payOf (f : BitVec 3) (w : Word) : Nat := if f.getLsbD 1 then paylen w else 0

/-- `TLP_HDRLEN(w)`, the length function (R221). -/
def hdrLen (w : Word) : HdrLen :=
  let f := fmtOf w
  if f = 0b100 then .prefixWord
  else if f.getLsbD 2 then .invalid
  else .header (hdrWordsOfFmt f) (payOf f w) (tdOf w) (hdrCount (hdrWordsOfFmt f) + payOf f w + tdOf w)

/-- The result of `tlplen` (R222): a length with the index of the header word, a reserved Fmt at an index,
or a list that ends first. -/
inductive TlpLen where
  | len (i : Nat) (hw : HdrWords) (pay d total : Nat)
  | bad (i : Nat)
  | short (n : Nat)
  deriving DecidableEq, Repr

/-- `tlplen` with `i` words already skipped (R222). -/
def tlpLenFrom (i : Nat) (ws : List Word) : TlpLen :=
  match ws with
  | [] => .short i
  | w :: rest =>
    match hdrLen w with
    | .prefixWord => tlpLenFrom (i + 1) rest
    | .header hw pay d t => .len i hw pay d (i + t)
    | .invalid => .bad i

/-- `tlplen(ws)` (R222, R140). -/
def tlpLen (ws : List Word) : TlpLen := tlpLenFrom 0 ws

/-- `H.w[0 .. hw)` for a header word count (R223-R225). -/
def headerSpan (h : Header) (hw : HdrWords) : List Word :=
  match hw with
  | .dw3 => [h.w0, h.w1, h.w2]
  | .dw4 => [h.w0, h.w1, h.w2, h.w3]

/-- The header value whose words are at the front of a list: `w[3]` is 0 for 3 words (R223). -/
def headerOfWords (hw : HdrWords) (ws : List Word) : Header :=
  { w0 := ws.getD 0 0, w1 := ws.getD 1 0, w2 := ws.getD 2 0
    w3 := match hw with | .dw3 => 0 | .dw4 => ws.getD 3 0
    hw := hw }

/-- `regoff(d) = (d[11:8] << 8) | (d[7:2] << 2)`, a 12-bit offset (R120). -/
def regOff (d : Word) : BitVec 12 :=
  ((d.extractLsb' 8 4).zeroExtend 12 <<< 8) ||| ((d.extractLsb' 2 6).zeroExtend 12 <<< 2)

/-! ### Register requests -/

/-- The legal region values (R280, R52). -/
def regionLegal (region : Half) : Bool :=
  decide (region = Lit.regionReadOnly) || decide (region = Lit.regionReadWrite) ||
    decide (region = Lit.regionShadow)

/-- The legal channel values (R280). -/
def channelLegal (ch : Nat) : Bool := decide (1 ≤ ch) && decide (ch ≤ 3)

/-- `in(x)`: the address lies in the range of `cnt` bytes from `addr` (R280). -/
def inRange (addr cnt x : Nat) : Bool := decide (addr ≤ x) && decide (x < addr + cnt)

/-- `Pairs(addr, cnt)`: every even address from `addr & ~1` below `addr + cnt`, rising (R283). -/
def pairs (addr cnt : Nat) : List Nat :=
  let a0 := addr - addr % 2
  (List.range ((addr + cnt - a0 + 1) / 2)).map fun k => a0 + 2 * k

/-- The flagged address `fa = region | a` (R122, R53). -/
def flaggedAddr (region : Half) (a : Nat) : Half := region ||| BitVec.ofNat 16 a

/-- A request record from its data bytes, enables, flagged address and command byte (R125). -/
def reqRec (d0 d1 beLo beHi : Byte) (fa : Half) (cmd : Byte) : Rec :=
  recOf d0 d1 beLo beHi (fa.extractLsb' 8 8) (fa.extractLsb' 0 8) cmd Lit.recTrailer

/-- `ReadRec(a)` (R282). -/
def readRec (region : Half) (ch a : Nat) : Rec :=
  reqRec 0 0 0 0 (flaggedAddr region a) (Lit.cmdRead ||| BitVec.ofNat 8 ch)

/-- The data byte a write record carries for address `x`: 0 outside the range (R282). -/
def writeData (addr : Nat) (data : List Byte) (x : Nat) : Byte :=
  if inRange addr data.length x then data.getD (x - addr) 0 else 0

/-- The byte enable a write record carries for address `x` (R282). -/
def writeEnable (addr cnt x : Nat) : Byte := if inRange addr cnt x then 0xFF else 0x00

/-- `WriteRec(a)` (R282). -/
def writeRec (addr : Nat) (data : List Byte) (region : Half) (ch a : Nat) : Rec :=
  reqRec (writeData addr data a) (writeData addr data (a + 1))
    (writeEnable addr data.length a) (writeEnable addr data.length (a + 1))
    (flaggedAddr region a) (Lit.cmdWrite ||| BitVec.ofNat 8 ch)

end Sys2Proof.Machine
end

