-- ==== Sys2Proof/Machine/Ops.lean ====
section
/-! DEFINITION. The shared operations: updates of the state, the transport ports (spec/00_scope.md R15),
the receive cursor (spec/40_deinterleaver.md R161), the accumulator (R168, R169, R171), and delivering an
outcome, which is this block's counterpart of taking an exception (spec/60_exceptions.md R348). There is no
return from one: the host goes on with any operation (R350). -/

namespace Sys2Proof.Machine

/-! ### Updates of the state -/

/-- The receiver replaced. -/
def State.setRx (s : State) (r : Receiver) : State := { s with rx := r }

/-- The transaction replaced. -/
def State.setTxn (s : State) (t : Txn) : State := { s with txn := t }

/-- The operation in progress replaced. -/
def State.setCtl (s : State) (c : Ctl) : State := { s with ctl := c }

/-- The session replaced. -/
def State.setSession (s : State) (x : Session) : State := { s with session := x }

/-- The frame under construction replaced. -/
def State.setFrame (s : State) (bs : List Byte) : State := { s with txFrame := bs }

/-- One more outcome on the host command port. -/
def State.addReply (s : State) (r : Reply) : State := { s with replies := s.replies ++ [r] }

/-- One more event at the transport ports. -/
def State.addEvent (s : State) (e : PortEvent) : State := { s with trace := s.trace ++ [e] }

/-! ### Delivering an outcome -/

/-- An outcome ends the host operation and returns its value to the host (R348). -/
def deliver (r : Reply) (s : State) : State := (s.addReply r).setCtl .idle

/-- Where control goes after an RX_DECODE outcome: back to the host, but inside the loop of `rx.next` an
OutOfSync starts the next RX_DECODE (R152). -/
def ctlAfterRx (c : Ctl) (r : Reply) : Ctl := if c = .rx true ∧ r = .outOfSync then .rx true else .idle

/-- What the diagnostic port is offered with an outcome: every Corrupt, nothing else (R349). -/
def diagOf (r : Reply) : List (CorruptReason × List Word) :=
  match r with
  | .corrupt reason d => [(reason, d)]
  | _ => []

/-- `emit O` of RX_DECODE (R16, R340): the outcome goes to the host, a Corrupt to the diagnostic port too. -/
def emitRx (r : Reply) (s : State) : State :=
  { s with replies := s.replies ++ [r], diag := s.diag ++ diagOf r, ctl := ctlAfterRx s.ctl r }

/-! ### The transport ports -/

/-- A TransportRead returns at most the bytes asked for, `RX_BUF_BYTES` (R15, R161, R288). -/
def clipAnswer (a : ReadAnswer) : ReadAnswer :=
  match a with
  | .bytes bs => .bytes (bs.take Lit.rxBufBytes)
  | .tErr => .tErr

/-- The bytes of an answer; a TErr brings none (R161). -/
def answerBytes (a : ReadAnswer) : List Byte :=
  match a with
  | .bytes bs => bs
  | .tErr => []

/-- The state once a TransportRead has returned the clipped answer, `rest` being the draws still to come. -/
def tookAnswer (a : ReadAnswer) (rest : List ReadAnswer) (s : State) : State :=
  { s with rxFeed := rest, trace := s.trace ++ [.didRead (clipAnswer a)] }

/-- `TransportRead(RX_BUF_BYTES)` (R15): the environment's next draw, or `none` while the call has not
returned (R358; log entry 1). -/
def transportRead (s : State) : Option (ReadAnswer × State) :=
  match s.rxFeed with
  | [] => none
  | a :: rest => some (clipAnswer a, tookAnswer a rest s)

/-- A free answer as the answer of a TransportWrite (log entry 9). -/
def writeAnswerOf (e : Option Nat) : WriteAnswer :=
  match e with
  | none => .ok
  | some k => .tErr k

/-- What the next TransportWrite returns (R15): the environment's next draw, or, where the state lists none, a
free value (log entry 9). A write always returns: "A blocking transport read is the only waiting state" (R358). -/
def nextWrite (s : State) : WriteAnswer :=
  match s.txFeed with
  | [] => writeAnswerOf (Config.writeError s.draws)
  | a :: _ => a

/-- The state once a TransportWrite has returned: its draw used up. -/
def tookWrite (s : State) : State :=
  { s with txFeed := s.txFeed.tail, draws := if s.txFeed = [] then s.draws + 1 else s.draws }

/-- `TransportWrite(bs)` (R15): whether it returned Ok, and the state after. After a TErr the bytes that went
out are the environment's draw (log entry 9). -/
def transportWrite (bs : List Byte) (s : State) : Bool × State :=
  match nextWrite s with
  | .ok => (true, (tookWrite s).addEvent (.wrote bs))
  | .tErr k => (false, (tookWrite s).addEvent (.writeFailed (bs.take k)))

/-- `Delay(ms)` (R15, R21, R400). -/
def delay (ms : Nat) (s : State) : State := s.addEvent (.delayed ms)

/-! ### The accumulator -/

/-- AccReset (R171): the contents of `acc` stay as they are. -/
def accReset (r : Receiver) : Receiver :=
  { r with n := 0, pfx := 0, exp := .unknown, ovf := false, retries := 0 }

/-- `S.acc[0 .. S.n)`. -/
def accWords (r : Receiver) : List Word := r.acc.take r.n

/-- UpdateExpected (R169). -/
def updateExpected (w : Word) (r : Receiver) : Receiver :=
  match hdrLen w with
  | .prefixWord => { r with pfx := r.pfx + 1 }
  | .header _ _ _ t => { r with exp := .known (r.pfx + t) }
  | .invalid => { r with exp := .invalid }

/-- UpdateExpected, applied while `S.exp = Unknown` (R168, R169). -/
def trackExpected (w : Word) (r : Receiver) : Receiver :=
  if r.exp = .unknown then updateExpected w r else r

/-- Append (R168) for an accumulator of `cap` words. -/
def append (cap : Nat) (w : Word) (r : Receiver) : Receiver :=
  if r.n < cap then trackExpected w { r with acc := r.acc.set r.n w, n := r.n + 1 }
  else { r with ovf := true }

/-- Advance (R165). -/
def advance (r : Receiver) : Receiver := { r with sf := r.sf >>> 4, slot := r.slot + 1 }

/-! ### The receive cursor -/

/-- Word `i` of `RXBUF`, as its be32 value (R37, R71). -/
def bufWord (r : Receiver) (i : Nat) : Word :=
  be32 (Memory.read r.rxbuf (4 * i)) (Memory.read r.rxbuf (4 * i + 1)) (Memory.read r.rxbuf (4 * i + 2))
    (Memory.read r.rxbuf (4 * i + 3))

/-- The cursor stands inside the raw transfer buffer (R37). -/
def cursorOk (r : Receiver) : Bool := decide (r.rd ≤ r.lim) && decide (r.lim ≤ Lit.rxBufWords)

/-- A new buffer of at least one whole word (R161, R80). -/
def loadBuffer (bs : List Byte) (r : Receiver) : Receiver :=
  { r with rxbuf := Memory.store r.rxbuf 0 bs, rd := 0, lim := bs.length / 4, retries := 0 }

/-- The cursor made empty by a read without a whole word (R161). -/
def emptyCursor (r : Receiver) : Receiver := { r with rd := 0, lim := 0 }

/-- An empty read reports NoData (R172). -/
def noDataDue (p : Params) (r : Receiver) : Bool :=
  match p.noDataPolicy with
  | .state => decide (r.st = .awaitingStatus)
  | .stateOrIdle => decide (r.st = .awaitingStatus) || (decide (r.n = 0) && !r.ovf)

/-- One more empty read would exceed `MAX_EMPTY_RETRIES` (R173); never with INF. -/
def retriesSpent (p : Params) (r : Receiver) : Bool :=
  match p.maxEmptyRetries with
  | none => false
  | some m => decide (m < r.retries + 1)

/-- EmptyRead (R172, R173): whether it ended the operation, and the state after. -/
def emptyRead (s : State) : Bool × State :=
  if noDataDue s.cfg s.rx then (true, emitRx .noData s)
  else if retriesSpent s.cfg s.rx then
    (true, emitRx (.corrupt .retryExhausted (accWords s.rx))
      (s.setRx { accReset s.rx with st := .awaitingStatus }))
  else (false, s.setRx { s.rx with retries := s.rx.retries + 1 })

/-- How FetchWord ends: with a word, with the operation ended by an empty read, or waiting for the
transport. -/
inductive Fetch where
  | word (q : Word) (s : State)
  | ended (s : State)
  | waits (s : State)
  deriving Repr

/-- The word at the cursor, and the cursor past it (R161, R360). -/
def takeWord (s : State) : Fetch := .word (bufWord s.rx s.rx.rd) (s.setRx { s.rx with rd := s.rx.rd + 1 })

/-- The reads of FetchWord (R161), over the environment's draws: an answer of at least 4 bytes fills the
buffer, any other is an empty read, and a TErr counts as one (R359). -/
def fetchRead (feed : List ReadAnswer) (s : State) : Fetch :=
  match feed with
  | [] => .waits s
  | a :: rest =>
    let s1 := tookAnswer a rest s
    let bs := answerBytes (clipAnswer a)
    if 4 ≤ bs.length then takeWord (s1.setRx (loadBuffer bs s1.rx))
    else
      match emptyRead (s1.setRx (emptyCursor s1.rx)) with
      | (true, s2) => .ended s2
      | (false, s2) => fetchRead rest s2

/-- FetchWord (R161). -/
def fetchWord (s : State) : Fetch := if s.rx.rd = s.rx.lim then fetchRead s.rxFeed s else takeWord s

end Sys2Proof.Machine
end

