-- ==== Sys2Proof/Machine/Receiver.lean ====
section
/-! DEFINITION. The step rules of RX_DECODE (spec/40_deinterleaver.md R162-R170, R174) and one dispatch of
its loop (R160). -/

namespace Sys2Proof.Machine

/-- What a word of frame value `v` does where a status word is expected (R162, R104, R174). -/
def takeStatus (v : Word) (s : State) : State :=
  if v = Lit.fillerWord then s
  else if markOf v = Lit.statusMarker then s.setRx { s.rx with sf := v, slot := 0, st := .inData }
  else emitRx .outOfSync (s.setRx (accReset s.rx))

/-- The next state after a data slot of class `c` has been consumed (R164, R166, R167). -/
def stateAfterSlot (c : Nibble) (r : Receiver) : RxState :=
  if isLast c then .tlpComplete else nextDataState r

/-- The accumulator after a data slot of class `c` with the word `q`: appended in InData when the class is a
TLP class, discarded in InRemainder (R164, R166). -/
def slotAppend (cap : Nat) (c : Nibble) (q : Word) (r : Receiver) : Receiver :=
  if r.st = .inRemainder then r else if isTlp c then append cap q r else r

/-- A data slot of class `c` consumed with the word `q` (R164, R165, R166). -/
def takeSlot (cap : Nat) (c : Nibble) (q : Word) (r : Receiver) : Receiver :=
  let r1 := advance (slotAppend cap c q r)
  { r1 with st := stateAfterSlot c r1 }

/-- StepAwait (R162). -/
def stepAwait (s : State) : Tick :=
  match fetchWord s with
  | .word q s1 => .go (takeStatus (frameValue s1.cfg.frameOrder q) s1)
  | .ended s1 => .go s1
  | .waits s1 => .waits s1

/-- The end of a group: no word consumed, `sf` and the accumulator untouched (R163). -/
def endGroup (s : State) : State := s.setRx { s.rx with st := .awaitingStatus }

/-- StepData and StepRemainder for a slot of class `c` (R163, R164, R166). -/
def consumeSlot (c : Nibble) (s : State) : Tick :=
  if s.rx.slot = Lit.slotsPerGroup then .go (endGroup s)
  else
    match fetchWord s with
    | .word q s1 => .go (s1.setRx (takeSlot s1.cfg.accCap c q s1.rx))
    | .ended s1 => .go s1
    | .waits s1 => .waits s1

/-- The outcome of a TLP that has ended (R170, R345). -/
def completeReply (r : Receiver) : Reply :=
  match corruptReason r with
  | none => .complete (accWords r)
  | some reason => .corrupt reason (accWords r)

/-- StepComplete (R170): consumes no word and always emits. -/
def stepComplete (s : State) : State :=
  emitRx (completeReply s.rx) (s.setRx { accReset s.rx with st := stateAfterComplete s.rx })

/-- One turn of the loop of RX_DECODE (R160). -/
def rxTick (s : State) : Tick :=
  match s.rx.st with
  | .awaitingStatus => stepAwait s
  | .inData => consumeSlot (slotNibble s.rx) s
  | .inRemainder => consumeSlot (slotNibble s.rx) s
  | .tlpComplete => .go (stepComplete s)

/-- The receiver's reset state (R60, R178): the contents of `acc` and `rxbuf`, unspecified there, stay. -/
def resetReceiver (r : Receiver) : Receiver :=
  { accReset r with st := .awaitingStatus, sf := 0, slot := 0, rd := 0, lim := 0 }

end Sys2Proof.Machine
end

