-- ==== Sys2Proof/Machine/Register.lean ====
section
/-! DEFINITION. The register transaction (spec/42_register_access.md R280-R303): its phases (spec/10_state.md
R45), the batches of records, the response scanner and the places of the response bytes, and what a result
goes to (the host, `reg.clrbits8`, SESSION_INIT). -/

namespace Sys2Proof.Machine

/-! ### Starting and ending -/

/-- A transaction begins in phase Idle with its operands (R44, R45). -/
def startTxn (isWrite : Bool) (addr cnt : Nat) (data : List Byte) (region : Half) (ch : Nat) (cont : Cont)
    (s : State) : State :=
  { s with
    ctl := .reg
    txn := { Txn.none with
      isWrite := isWrite, addr := addr, cnt := cnt, data := data, region := region, ch := ch, cont := cont } }

/-- A REG_READ begins (R290). -/
def startRead (addr cnt : Nat) (region : Half) (ch : Nat) (cont : Cont) (s : State) : State :=
  startTxn false addr cnt [] region ch cont s

/-- A REG_WRITE begins; its count is the number of data bytes (R280, R295). -/
def startWrite (addr : Nat) (data : List Byte) (region : Half) (ch : Nat) (cont : Cont) (s : State) : State :=
  startTxn true addr data.length data region ch cont s

/-- The phase becomes Done with a result; an error in any phase does the same (R45). -/
def finishTxn (r : RegStatus) (s : State) : State := s.setTxn { s.txn with phase := .done, result := r }

/-! ### Idle: the argument checks -/

/-- The records of a call, one per pair in rising address order (R282, R283). -/
def txnRecs (t : Txn) : List Rec :=
  (pairs t.addr t.cnt).map fun a =>
    if t.isWrite then writeRec t.addr t.data t.region t.ch a else readRec t.region t.ch a

/-- The checks of R281, in their order; when they pass, the records are built and the phase is Issue. -/
def checkOperands (s : State) : State :=
  let t := s.txn
  if !regionLegal t.region || !channelLegal t.ch then finishTxn .badOperand s
  else if Lit.regSpaceBytes < t.addr + t.cnt then finishTxn .rangeError s
  else if t.cnt = 0 then finishTxn .ok s
  else
    s.setTxn { t with
      phase := .issue
      recs := txnRecs t
      put := 0
      batch := []
      out := if t.isWrite then [] else List.replicate t.cnt 0
      got := if t.isWrite then [] else List.replicate t.cnt false }

/-! ### Issue: the records, in batches -/

/-- A record put at the end of the batch (R284). -/
def putRecord (r : Rec) (s : State) : State :=
  s.setTxn { s.txn with batch := s.txn.batch ++ recBytes r, put := s.txn.put + 1 }

/-- One turn of the loop of IssueRecords: the batch is written first when the record would make it exceed
`TX_BATCH_BYTES`; a TErr ends the issue (R284). -/
def issueRecord (r : Rec) (s : State) : State :=
  if s.cfg.txBatchBytes < s.txn.batch.length + 8 then
    match transportWrite s.txn.batch s with
    | (true, s1) => putRecord r (s1.setTxn { s1.txn with batch := [] })
    | (false, s1) => finishTxn .transportError s1
  else putRecord r s

/-- Every record is written: REG_READ goes on to its delay, REG_WRITE is done (R290, R295). -/
def afterIssue (s : State) : State :=
  if s.txn.isWrite then finishTxn .ok s else s.setTxn { s.txn with phase := .wait, batch := [] }

/-- The last batch of IssueRecords (R284). -/
def flushBatch (s : State) : State :=
  if s.txn.batch = [] then afterIssue s
  else
    match transportWrite s.txn.batch s with
    | (true, s1) => afterIssue s1
    | (false, s1) => finishTxn .transportError s1

/-! ### Wait -/

/-- The response delay; the harvest starts after it (R290, R21). -/
def responseDelay (s : State) : State :=
  (delay Lit.regRespDelayMs s).setTxn { s.txn with phase := .harvest, k := 0 }

/-! ### Harvest: the scanner and the places -/

/-- The words of a group whose class nibble equals the channel (R285, R286): `j` is the slot of the first
word of the list. -/
def groupMatches (v : Word) (ch : Nat) (j : Nat) (ws : List Word) : List Word :=
  match ws with
  | [] => []
  | w :: rest =>
    if j < Lit.slotsPerGroup then
      if (nib v j).toNat = ch then w :: groupMatches v ch (j + 1) rest
      else groupMatches v ch (j + 1) rest
    else []

/-- Scan (R285) over the words of a buffer, `skip` words being passed over first: a filler word is stepped
over alone, a word without the marker with the 7 after it, a status word with its group. -/
def scanWords (o : FrameOrder) (ch : Nat) (skip : Nat) (ws : List Word) : List Word :=
  match skip, ws with
  | _, [] => []
  | k + 1, _ :: rest => scanWords o ch k rest
  | 0, q :: rest =>
    let v := frameValue o q
    if v = Lit.fillerWord then scanWords o ch 0 rest
    else if markOf v = Lit.statusMarker then groupMatches v ch 0 rest ++ scanWords o ch 7 rest
    else scanWords o ch 7 rest

/-- The response words of a harvest buffer, in scan order (R285). -/
def scan (o : FrameOrder) (ch : Nat) (bs : List Byte) : List Word := scanWords o ch 0 (wordsOf bs)

/-- `Put(k, b)` (R287). -/
def putByte (k : Nat) (b : Byte) (t : Txn) : Txn := { t with out := t.out.set k b, got := t.got.set k true }

/-- `off = (A - addr) mod 2^16` of a response address field, with A masked (R287, R250). -/
def respOffset (addr : Nat) (a : Half) : Nat := ((a &&& Lit.regAddrMask) - BitVec.ofNat 16 addr).toNat

/-- Place (R287) for a response's address field and its two data bytes. -/
def place (a : Half) (dA dA1 : Byte) (t : Txn) : Txn :=
  let off := respOffset t.addr a
  if off = 0xFFFF then putByte 0 dA1 t
  else
    let t1 := if off < t.cnt then putByte off dA t else t
    if off + 1 < t.cnt then putByte (off + 1) dA1 t1 else t1

/-- A response word dispatched in the harvest: placed, and no longer pending (R285, R287). -/
def takeResponse (a : Half) (dA dA1 : Byte) (s : State) : State :=
  s.setTxn { place a dA dA1 s.txn with pend := s.txn.pend.tail }

/-- Every output byte has been matched: `all(T.got)` (R288, R289). -/
def allGot (t : Txn) : Bool := t.got.all id

/-- The result of a harvest that has ended (R289). -/
def harvestResult (t : Txn) : RegStatus := if allGot t then .ok else .incomplete

/-- The loop of Harvest goes on to a read: fewer than `HARVEST_READS` so far, some byte unmatched, and the
last read was not an empty one (R288). -/
def harvestGoesOn (p : Params) (t : Txn) : Bool :=
  decide (t.k < p.harvestReads) && !allGot t && (decide (t.k = 0) || decide (4 ≤ t.buf.length))

/-- One harvest read (R288): TErr ends the call, any bytes are scanned. -/
def harvestRead (s : State) : Tick :=
  match transportRead s with
  | none => .waits s
  | some (.tErr, s1) => .go (finishTxn .transportError s1)
  | some (.bytes bs, s1) =>
    .go (s1.setTxn { s1.txn with
      k := s1.txn.k + 1, buf := bs, pend := scan s1.cfg.frameOrder s1.txn.ch bs })

/-- The three fields of a response word (R127). -/
def respAddr (q : Word) : Half := q.extractLsb' 16 16

/-- One turn of the harvest (R288): a pending response is placed, else a buffer is read, else the harvest
ends. -/
def harvestTick (s : State) : Tick :=
  match s.txn.pend with
  | q :: _ => .go (takeResponse (respAddr q) (byteOf q 2) (byteOf q 3) s)
  | [] =>
    if harvestGoesOn s.cfg s.txn then harvestRead s else .go (finishTxn (harvestResult s.txn) s)

/-! ### Done -/

/-- The output bytes of a REG_READ with a result: T.out after a harvest, no byte when nothing was sent, and
after a TransportError the bytes matched so far, the others being free (R289, R281, R290, I15; log entry 4). -/
def readOutput (r : RegStatus) (t : Txn) (draw : Nat) : List Byte :=
  match r with
  | .ok => t.out
  | .incomplete => t.out
  | .transportError => (List.range t.cnt).map fun k =>
      if t.got.getD k false then t.out.getD k 0 else Config.freeByte draw k
  | .rangeError => []
  | .badOperand => []

/-- The outcome of a transaction (R289, R295, R343). -/
def txnReply (t : Txn) (draw : Nat) : Reply :=
  if t.isWrite then .regWrite t.result else .regRead t.result (readOutput t.result t draw)

/-- The transaction is over and discarded (R44, R348); an error output uses up a draw. -/
def dropTxn (s : State) : State :=
  { s with txn := Txn.none, ctl := .idle, draws := s.draws + if s.txn.result = .transportError then 1 else 0 }

/-- SESSION_INIT ends with a session value (R300, R344). -/
def endSession (x : Session) (s : State) : State := (dropTxn s).setSession x |> deliver (.session x)

/-- The first output byte of a read of one byte. -/
def firstByte (t : Txn) : Byte := t.out.headD 0

/-- Where a transaction's result goes (R289, R152, R300-R302). -/
def finishPhase (s : State) : State :=
  let t := s.txn
  match t.cont with
  | .host => deliver (txnReply t s.draws) (dropTxn s)
  | .clrBits a m region =>
    let s1 := deliver (txnReply t s.draws) (dropTxn s)
    if t.result = .ok then startWrite a [firstByte t &&& ~~~m] region s.cfg.regCh .host s1 else s1
  | .sessVersion =>
    if t.result ≠ .ok then endSession (.fatal .versionReadFailed) s
    else if firstByte t ≠ Lit.requiredVersion then endSession (.fatal .versionMismatch) s
    else startRead Lit.filterReg 1 Lit.regionReadWrite s.cfg.regCh .sessFilterRead s
  | .sessFilterRead =>
    if t.result ≠ .ok then endSession (.fatal .filterClearFailure) s
    else
      startWrite Lit.filterReg [firstByte t &&& ~~~Lit.filterBit] Lit.regionReadWrite s.cfg.regCh
        .sessFilterWrite s
  | .sessFilterWrite =>
    if t.result ≠ .ok then endSession (.fatal .filterClearFailure) s else endSession .ready s

/-- One dispatch of a register transaction, by its phase (R45). -/
def regTick (s : State) : Tick :=
  match s.txn.phase with
  | .idle => .go (checkOperands s)
  | .issue =>
    match s.txn.recs[s.txn.put]? with
    | some r => .go (issueRecord r s)
    | none => .go (flushBatch s)
  | .wait => .go (responseDelay s)
  | .harvest => harvestTick s
  | .done => .go (finishPhase s)

end Sys2Proof.Machine
end

