-- ==== Sys2Proof/Machine/Micro.lean ====
section
/-! DEFINITION. The dispatches of an operation in progress and running one. A host operation runs to its
outcome in one step (spec/00_scope.md R8, spec/70_reset_and_hazards.md R402) as long as the environment has
drawn the answers of its transport reads; where a read has not returned yet, the operation stays in progress
in the state (spec/60_exceptions.md R358: "A blocking transport read is the only waiting state … all state
survives it") and the following steps go on with it one dispatch at a time (log entry 1). A write never
waits. -/

namespace Sys2Proof.Machine

/-! ### The transmit path -/

/-- The record of a TLP word put into the frame (R128, R225). -/
def frameWord (w : Word) (last : Bool) (s : State) : State :=
  s.setFrame (s.txFrame ++ recBytes (txTlpRec w last))

/-- `Frame(ws)` under `REC8_77` (R225). -/
def frameRec877 (ws : List Word) : List Byte :=
  match ws with
  | [] => []
  | w :: rest => recBytes (txTlpRec w rest.isEmpty) ++ frameRec877 rest

/-- The words of a TLP_SEND not yet framed, after one has been. -/
def sendRest (c : Ctl) : Ctl :=
  match c with
  | .send (_ :: rest) => .send rest
  | other => other

/-- A word of the TLP framed, and the next one due (R225). -/
def sendWord (w : Word) (last : Bool) (s : State) : State := (frameWord w last s).setCtl (sendRest s.ctl)

/-- The whole TLP in one TransportWrite, and the outcome (R225). -/
def sendFrame (s : State) : State :=
  match transportWrite s.txFrame s with
  | (true, s1) => deliver (.sent .ok) (s1.setFrame [])
  | (false, s1) => deliver (.sent .transportError) (s1.setFrame [])

/-! ### One dispatch -/

/-- One dispatch of the operation in progress. -/
def tick (s : State) : Tick :=
  match s.ctl with
  | .idle => .go s
  | .rx _ => rxTick s
  | .send [] => .go (sendFrame s)
  | .send (w :: rest) => .go (sendWord w rest.isEmpty s)
  | .reg => regTick s

/-- The operation in progress run on, for at most `fuel` dispatches: until it has ended or waits for a
transport read. An operation that the fuel does not finish stays in progress. -/
def run (fuel : Nat) (s : State) : State :=
  match fuel with
  | 0 => s
  | n + 1 =>
    if s.ctl = .idle then s
    else
      match tick s with
      | .waits s1 => s1
      | .go s1 => run n s1

/-! ### Enough fuel -/

/-- The bytes that the environment's read draws hold. -/
def feedBytes (feed : List ReadAnswer) : Nat := (feed.map fun a => (answerBytes a).length).sum

/-- A bound on the dispatches an operation can still take before it ends or waits: every dispatch uses up
a word of the cursor, a draw, a record, or one of the few phases of at most three transactions (R175). -/
def dispatchBound (s : State) : Nat :=
  2 * (s.rx.lim - s.rx.rd) + feedBytes s.rxFeed + s.rxFeed.length + s.txn.cnt + s.txn.pend.length + 64 +
    (match s.ctl with | .send ws => ws.length | _ => 0)

/-- The operation in progress run to its outcome, or until it waits. -/
def runOp (s : State) : State := run (dispatchBound s) s

/-- A meaning that may fetch through the cursor: a cursor outside the buffer is a fault (R37, R70). -/
def withCursor (s : State) (t : State) : Host.Outcome State Fault Refusal :=
  if cursorOk s.rx then .next t else .fault .cursorOutsideBuffer

end Sys2Proof.Machine
end

