-- ==== Sys2Proof/Machine/Codec.lean ====
section
/-! DEFINITION. The meanings of the TLP codec's host operations (spec/41_tlp_codec.md R221-R226). The codec
has no state: but for TLP_ENCODE's destination buffer and TLP_SEND's transport write, an operation only
returns its value (R43). -/

namespace Sys2Proof.Machine

/-- TLP_HDRLEN (R221). -/
def execTlpHdrlen (w : Word) (s : State) : Host.Outcome State Fault Refusal :=
  .next (deliver (.hdrLen (hdrLen w)) s)

/-- The words TLP_DECODE requires (R223, D17). -/
def decodeNeed (c : DecodeCheck) (i : Nat) (hw : HdrWords) (total : Nat) : Nat :=
  match c with
  | .total => total
  | .header => i + hdrCount hw

/-- `TLP_DECODE(ws)` (R223). -/
def tlpDecode (c : DecodeCheck) (ws : List Word) : Except CodecStatus Decoded :=
  match tlpLen ws with
  | .short _ => .error .truncated
  | .bad _ => .error .invalidFormat
  | .len i hw pay _ t =>
    if ws.length < decodeNeed c i hw t then .error .truncated
    else .ok { h := headerOfWords hw (ws.drop i), pfx := i, poff := i + hdrCount hw, plen := pay }

/-- TLP_DECODE (R223). -/
def execTlpDecode (ws : List Word) (s : State) : Host.Outcome State Fault Refusal :=
  .next (deliver (.decoded (tlpDecode s.cfg.decodeCheck ws)) s)

/-- The header bytes TLP_ENCODE writes into a destination of `cap` bytes, or its error (R224, R346). -/
def tlpEncode (h : Header) (cap : Nat) : Except CodecStatus (List Byte) :=
  match hdrLen h.w0 with
  | .prefixWord => .error .invalidFormat
  | .invalid => .error .invalidFormat
  | .header hw _ _ _ =>
    if cap < 4 * hdrCount hw then .error .bufferTooSmall else .ok (bytesOfWords (headerSpan h hw))

/-- TLP_ENCODE (R224): `dst[0 .. 4hw)` is written and no other byte of it. -/
def execTlpEncode (h : Header) (cap : Nat) (s : State) : Host.Outcome State Fault Refusal :=
  match tlpEncode h cap with
  | .error e => .next (deliver (.encoded (.error e)) s)
  | .ok bs => .next (deliver (.encoded (.ok bs.length)) { s with hostMem := Memory.store s.hostMem 0 bs })

/-- The TLP_SEND operation begun with the words of the whole TLP: under `REC8_77` each is framed in turn,
under another framing the frame is that parameter's function of the words (R225). -/
def startSend (ws : List Word) (s : State) : State :=
  match s.cfg.txFraming with
  | .rec877 => (s.setFrame []).setCtl (.send ws)
  | .other k => (s.setFrame (Config.otherFraming k ws)).setCtl (.send [])

/-- TLP_SEND (R225, R346). -/
def execTlpSend (h : Header) (tail : List Word) (s : State) : Host.Outcome State Fault Refusal :=
  match hdrLen h.w0 with
  | .prefixWord => .next (deliver (.sent .invalidFormat) s)
  | .invalid => .next (deliver (.sent .invalidFormat) s)
  | .header hw _ _ t =>
    if hdrCount hw + tail.length ≠ t then .next (deliver (.sent .lengthMismatch) s)
    else .next (runOp (startSend (headerSpan h hw ++ tail) s))

/-- CFG_REGOFF (R226): it never fails and does not check the type. -/
def execCfgRegoff (h : Header) (s : State) : Host.Outcome State Fault Refusal :=
  .next (deliver (.regOff (regOff h.w2)) s)

end Sys2Proof.Machine
end

