-- ==== Sys2Proof/Machine/Leaders.lean ====
section
/-! DEFINITION. The meanings of a TLP leader word by its Fmt (spec/41_tlp_codec.md R231-R236) and by its type
group (R240-R246). A leader word is dispatched on two sides. Inside RX_DECODE it is a word just stored in the
accumulator, and it fixes the expected count while that is unknown (spec/40_deinterleaver.md R169, R235, R236:
"The receiver counts it in `S.pfx`", "sets `S.exp = Invalid`"); `append` applies the same operation. On the
codec's side it gives the value of the length function (R221), and its type selects a field view
(spec/30_encoding.md R112). The block acts on Fmt, TD and Length alone (log entry 10). -/

namespace Sys2Proof.Machine

/-- A leader word dispatched with the reply it has on the codec's side. -/
def leader (w : Word) (r : Reply) (s : State) : State :=
  match s.ctl with
  | .rx _ => s.setRx (trackExpected w s.rx)
  | _ => deliver r s

/-- A leader word dispatched on its Fmt: the value of the length function (R221, R231-R236). -/
def leaderFmt (w : Word) (s : State) : Host.Outcome State Fault Refusal :=
  .next (leader w (.hdrLen (hdrLen w)) s)

/-- A leader word dispatched on its type: handled by its Fmt alone, with the view of its group (R240-R246). -/
def leaderType (v : View) (w : Word) (s : State) : Host.Outcome State Fault Refusal :=
  .next (leader w (.tlpView (hdrLen w) v) s)

/-- FMT_3DW_NODATA (R231). -/
def execFmt3dwNodata (rest : BitVec 29) (s : State) : Host.Outcome State Fault Refusal :=
  leaderFmt (0b000#3 ++ rest) s

/-- FMT_4DW_NODATA (R232). -/
def execFmt4dwNodata (rest : BitVec 29) (s : State) : Host.Outcome State Fault Refusal :=
  leaderFmt (0b001#3 ++ rest) s

/-- FMT_3DW_DATA (R233). -/
def execFmt3dwData (rest : BitVec 29) (s : State) : Host.Outcome State Fault Refusal :=
  leaderFmt (0b010#3 ++ rest) s

/-- FMT_4DW_DATA (R234). -/
def execFmt4dwData (rest : BitVec 29) (s : State) : Host.Outcome State Fault Refusal :=
  leaderFmt (0b011#3 ++ rest) s

/-- FMT_PREFIX (R235). -/
def execFmtPrefix (rest : BitVec 29) (s : State) : Host.Outcome State Fault Refusal :=
  leaderFmt (0b100#3 ++ rest) s

/-- FMT_RSVD_101 (R236). -/
def execFmtRsvd101 (rest : BitVec 29) (s : State) : Host.Outcome State Fault Refusal :=
  leaderFmt (0b101#3 ++ rest) s

/-- FMT_RSVD_110 (R236). -/
def execFmtRsvd110 (rest : BitVec 29) (s : State) : Host.Outcome State Fault Refusal :=
  leaderFmt (0b110#3 ++ rest) s

/-- FMT_RSVD_111 (R236). -/
def execFmtRsvd111 (rest : BitVec 29) (s : State) : Host.Outcome State Fault Refusal :=
  leaderFmt (0b111#3 ++ rest) s

/-- MRd32 (R240). -/
def execMrd32 (rest : BitVec 24) (s : State) : Host.Outcome State Fault Refusal :=
  leaderType .memReq (0x00#8 ++ rest) s

/-- MRd64 (R240). -/
def execMrd64 (rest : BitVec 24) (s : State) : Host.Outcome State Fault Refusal :=
  leaderType .memReq (0x20#8 ++ rest) s

/-- MRdLk32 (R240). -/
def execMrdLk32 (rest : BitVec 24) (s : State) : Host.Outcome State Fault Refusal :=
  leaderType .memReq (0x01#8 ++ rest) s

/-- MRdLk64 (R240). -/
def execMrdLk64 (rest : BitVec 24) (s : State) : Host.Outcome State Fault Refusal :=
  leaderType .memReq (0x21#8 ++ rest) s

/-- MWr32 (R240). -/
def execMwr32 (rest : BitVec 24) (s : State) : Host.Outcome State Fault Refusal :=
  leaderType .memReq (0x40#8 ++ rest) s

/-- MWr64 (R240). -/
def execMwr64 (rest : BitVec 24) (s : State) : Host.Outcome State Fault Refusal :=
  leaderType .memReq (0x60#8 ++ rest) s

/-- IORd (R241). -/
def execIord (rest : BitVec 24) (s : State) : Host.Outcome State Fault Refusal :=
  leaderType .ioReq (0x02#8 ++ rest) s

/-- IOWr (R241). -/
def execIowr (rest : BitVec 24) (s : State) : Host.Outcome State Fault Refusal :=
  leaderType .ioReq (0x42#8 ++ rest) s

/-- CfgRd0 (R242). -/
def execCfgRd0 (rest : BitVec 24) (s : State) : Host.Outcome State Fault Refusal :=
  leaderType .cfgReq (0x04#8 ++ rest) s

/-- CfgWr0 (R242). -/
def execCfgWr0 (rest : BitVec 24) (s : State) : Host.Outcome State Fault Refusal :=
  leaderType .cfgReq (0x44#8 ++ rest) s

/-- CfgRd1 (R242). -/
def execCfgRd1 (rest : BitVec 24) (s : State) : Host.Outcome State Fault Refusal :=
  leaderType .cfgReq (0x05#8 ++ rest) s

/-- CfgWr1 (R242). -/
def execCfgWr1 (rest : BitVec 24) (s : State) : Host.Outcome State Fault Refusal :=
  leaderType .cfgReq (0x45#8 ++ rest) s

/-- Cpl (R244). -/
def execCpl (rest : BitVec 24) (s : State) : Host.Outcome State Fault Refusal :=
  leaderType .completion (0x0A#8 ++ rest) s

/-- CplD (R244). -/
def execCplD (rest : BitVec 24) (s : State) : Host.Outcome State Fault Refusal :=
  leaderType .completion (0x4A#8 ++ rest) s

/-- CplLk (R244). -/
def execCplLk (rest : BitVec 24) (s : State) : Host.Outcome State Fault Refusal :=
  leaderType .completion (0x0B#8 ++ rest) s

/-- CplDLk (R244). -/
def execCplDLk (rest : BitVec 24) (s : State) : Host.Outcome State Fault Refusal :=
  leaderType .completion (0x4B#8 ++ rest) s

/-- FetchAdd32 (R245). -/
def execFetchAdd32 (rest : BitVec 24) (s : State) : Host.Outcome State Fault Refusal :=
  leaderType .atomicReq (0x4C#8 ++ rest) s

/-- FetchAdd64 (R245). -/
def execFetchAdd64 (rest : BitVec 24) (s : State) : Host.Outcome State Fault Refusal :=
  leaderType .atomicReq (0x6C#8 ++ rest) s

/-- Swap32 (R245). -/
def execSwap32 (rest : BitVec 24) (s : State) : Host.Outcome State Fault Refusal :=
  leaderType .atomicReq (0x4D#8 ++ rest) s

/-- Swap64 (R245). -/
def execSwap64 (rest : BitVec 24) (s : State) : Host.Outcome State Fault Refusal :=
  leaderType .atomicReq (0x6D#8 ++ rest) s

/-- CAS32 (R245). -/
def execCas32 (rest : BitVec 24) (s : State) : Host.Outcome State Fault Refusal :=
  leaderType .atomicReq (0x4E#8 ++ rest) s

/-- CAS64 (R245). -/
def execCas64 (rest : BitVec 24) (s : State) : Host.Outcome State Fault Refusal :=
  leaderType .atomicReq (0x6E#8 ++ rest) s

/-- Msg (R243). -/
def execMsg (rest : BitVec 27) (s : State) : Host.Outcome State Fault Refusal :=
  leaderType .message (0b00110#5 ++ rest) s

/-- MsgD (R243). -/
def execMsgD (rest : BitVec 27) (s : State) : Host.Outcome State Fault Refusal :=
  leaderType .message (0b01110#5 ++ rest) s

/-- LPrfx (R246). -/
def execLprfx (rest : BitVec 28) (s : State) : Host.Outcome State Fault Refusal :=
  leaderType .prefixView (0x8#4 ++ rest) s

/-- EPrfx (R246). -/
def execEprfx (rest : BitVec 28) (s : State) : Host.Outcome State Fault Refusal :=
  leaderType .prefixView (0x9#4 ++ rest) s

end Sys2Proof.Machine
end

