-- ==== Sys2Proof/Machine/ReceiverOps.lean ====
section
/-! DEFINITION. The meanings of the receiver's host operations and of the pseudo-instructions that stand for
them (spec/40_deinterleaver.md R160, R177, R178; spec/30_encoding.md R152). -/

namespace Sys2Proof.Machine

/-- RX_DECODE: the receive state machine run until exactly one outcome (R160). -/
def execRxDecode (s : State) : Host.Outcome State Fault Refusal :=
  withCursor s (runOp (s.setCtl (.rx false)))

/-- The cursor moved to the end of the buffer (R177). -/
def discardBuffer (s : State) : State := s.setRx { s.rx with rd := s.rx.lim }

/-- RX_DISCARD (R177). -/
def execRxDiscard (s : State) : Host.Outcome State Fault Refusal := .next (deliver .ok (discardBuffer s))

/-- RX_RESET (R178): `S.session` is unchanged. -/
def execRxReset (s : State) : Host.Outcome State Fault Refusal :=
  .next (deliver .ok (s.setRx (resetReceiver s.rx)))

/-- `rx.resync` expands to `rx.discard` (R152). -/
def execRxResync (s : State) : Host.Outcome State Fault Refusal := .next (deliver .ok (discardBuffer s))

/-- `rx.next`: RX_DECODE until the outcome is not OutOfSync (R152). Each RX_DECODE returns its outcome. -/
def execRxNext (s : State) : Host.Outcome State Fault Refusal :=
  withCursor s (runOp (s.setCtl (.rx true)))

end Sys2Proof.Machine
end

