-- ==== Sys2Proof/Machine/RegisterOps.lean ====
section
/-! DEFINITION. The meanings of the register path's host operations, of the pseudo-instructions over them,
and of SESSION_INIT (spec/42_register_access.md R290, R295, R300; spec/30_encoding.md R152). -/

namespace Sys2Proof.Machine

/-- REG_READ (R290). -/
def execRegRead (addr cnt : Nat) (region : Half) (ch : Nat) (s : State) : Host.Outcome State Fault Refusal :=
  .next (runOp (startRead addr cnt region ch .host s))

/-- REG_WRITE (R295). -/
def execRegWrite (addr : Nat) (data : List Byte) (region : Half) (ch : Nat) (s : State) :
    Host.Outcome State Fault Refusal :=
  .next (runOp (startWrite addr data region ch .host s))

/-- `reg.read8 a, region` expands to `reg.read a, 1, region, REG_CH` (R152). -/
def execRegRead8 (a : Nat) (region : Half) (s : State) : Host.Outcome State Fault Refusal :=
  .next (runOp (startRead a 1 region s.cfg.regCh .host s))

/-- `reg.clrbits8 a, m, region`: that read, then, if it returns Ok with byte v, the write of `v & ~m`
(R152). -/
def execRegClrbits8 (a : Nat) (m : Byte) (region : Half) (s : State) : Host.Outcome State Fault Refusal :=
  .next (runOp (startRead a 1 region s.cfg.regCh (.clrBits a m region) s))

/-- SESSION_INIT (R300): RX_RESET, then the version read; the rest follows from its results (R301, R302). -/
def execSessionInit (s : State) : Host.Outcome State Fault Refusal :=
  .next (runOp (startRead Lit.versionReg 1 Lit.regionReadOnly s.cfg.regCh .sessVersion
    (s.setRx (resetReceiver s.rx))))

end Sys2Proof.Machine
end

