-- ==== Sys2Proof/Machine/Units.lean ====
section
/-! DEFINITION. The meanings of the wire units that the operations dispatch: the words and slots of the
receive stream (spec/40_deinterleaver.md R162, R164), the response words of a harvest
(spec/42_register_access.md R287), and the records of the transmit stream (R291, R296;
spec/41_tlp_codec.md R225). -/

namespace Sys2Proof.Machine

/-- A STATUS word where a status word is expected (R162). -/
def execStatus (slots : BitVec 28) (s : State) : Host.Outcome State Fault Refusal :=
  .next (takeStatus (Lit.statusMarker ++ slots) s)

/-- A FILLER word where a status word is expected: skipped (R162, R104, R136). -/
def execFiller (s : State) : Host.Outcome State Fault Refusal := .next (takeStatus Lit.fillerWord s)

/-- A slot of class TLP_DATA (R164). -/
def execSlotTlpData (b3 : BitVec 1) (s : State) : Host.Outcome State Fault Refusal :=
  withCursor s (consumeSlot (b3 ++ 0b000#3) s).state

/-- A slot of class TLP_LAST (R164, R166). -/
def execSlotTlpLast (b3 : BitVec 1) (s : State) : Host.Outcome State Fault Refusal :=
  withCursor s (consumeSlot (b3 ++ 0b100#3) s).state

/-- A slot of class NON_TLP, pattern 01 (R164, R166). -/
def execSlotNonTlp01 (hi : BitVec 2) (s : State) : Host.Outcome State Fault Refusal :=
  withCursor s (consumeSlot (hi ++ 0b01#2) s).state

/-- A slot of class NON_TLP, pattern 10 (R164, R166). -/
def execSlotNonTlp10 (hi : BitVec 2) (s : State) : Host.Outcome State Fault Refusal :=
  withCursor s (consumeSlot (hi ++ 0b10#2) s).state

/-- A slot of class NON_TLP, pattern 11 (R164, R166). -/
def execSlotNonTlp11 (hi : BitVec 2) (s : State) : Host.Outcome State Fault Refusal :=
  withCursor s (consumeSlot (hi ++ 0b11#2) s).state

/-- A register response word in the harvest (R287). -/
def execRegresp (a : Half) (dA dA1 : Byte) (s : State) : Host.Outcome State Fault Refusal :=
  .next (takeResponse a dA dA1 s)

/-- A register request record at the transmit stream: one turn of IssueRecords (R284). A record with a
region or channel that R281 does not allow is never emitted: the call ends with BadOperand and nothing is
sent (R126, R281). -/
def emitRegReq (region : BitVec 2) (ch : BitVec 2) (r : Rec) (s : State) : Host.Outcome State Fault Refusal :=
  if regionBitsOk region ∧ channelBitsOk ch then .next (issueRecord r s)
  else .next (finishTxn .badOperand s)

/-- REG_RD (R291). -/
def execRegRd (region : BitVec 2) (pair : BitVec 11) (ch : BitVec 2) (s : State) :
    Host.Outcome State Fault Refusal :=
  emitRegReq region ch (regRdRec region pair ch) s

/-- REG_WR (R296). -/
def execRegWr (d0 d1 beLo beHi : Byte) (region : BitVec 2) (pair : BitVec 11) (ch : BitVec 2) (s : State) :
    Host.Outcome State Fault Refusal :=
  emitRegReq region ch (regWrRec d0 d1 beLo beHi region pair ch) s

/-- TX_TLP_WORD: the record of a TLP word that is not the last (R225, R128). -/
def execTxTlpWord (w : Word) (s : State) : Host.Outcome State Fault Refusal := .next (sendWord w false s)

/-- TX_TLP_LAST: the record of a TLP's last word (R225, R128). -/
def execTxTlpLast (w : Word) (s : State) : Host.Outcome State Fault Refusal := .next (sendWord w true s)

end Sys2Proof.Machine
end

