-- ==== Sys2Proof/Machine/Dispatch.lean ====
section
/-! DEFINITION. `exec`: one arm per constructor of `Instr`, each one direct call of the instruction's
meaning. -/

namespace Sys2Proof.Machine

def exec (i : Instr) (s : State) : Host.Outcome State Fault Refusal :=
  match i with
  | .rxDecode => Sys2Proof.Machine.execRxDecode s
  | .rxDiscard => Sys2Proof.Machine.execRxDiscard s
  | .rxReset => Sys2Proof.Machine.execRxReset s
  | .tlpHdrlen w => Sys2Proof.Machine.execTlpHdrlen w s
  | .tlpDecode ws => Sys2Proof.Machine.execTlpDecode ws s
  | .tlpEncode h cap => Sys2Proof.Machine.execTlpEncode h cap s
  | .tlpSend h tail => Sys2Proof.Machine.execTlpSend h tail s
  | .cfgRegoff h => Sys2Proof.Machine.execCfgRegoff h s
  | .regRead addr cnt region ch => Sys2Proof.Machine.execRegRead addr cnt region ch s
  | .regWrite addr data region ch => Sys2Proof.Machine.execRegWrite addr data region ch s
  | .sessionInit => Sys2Proof.Machine.execSessionInit s
  | .regRead8 a region => Sys2Proof.Machine.execRegRead8 a region s
  | .regClrbits8 a m region => Sys2Proof.Machine.execRegClrbits8 a m region s
  | .rxResync => Sys2Proof.Machine.execRxResync s
  | .rxNext => Sys2Proof.Machine.execRxNext s
  | .status slots => Sys2Proof.Machine.execStatus slots s
  | .filler => Sys2Proof.Machine.execFiller s
  | .slotTlpData b3 => Sys2Proof.Machine.execSlotTlpData b3 s
  | .slotTlpLast b3 => Sys2Proof.Machine.execSlotTlpLast b3 s
  | .slotNonTlp01 hi => Sys2Proof.Machine.execSlotNonTlp01 hi s
  | .slotNonTlp10 hi => Sys2Proof.Machine.execSlotNonTlp10 hi s
  | .slotNonTlp11 hi => Sys2Proof.Machine.execSlotNonTlp11 hi s
  | .regresp a dA dA1 => Sys2Proof.Machine.execRegresp a dA dA1 s
  | .regRd region pair ch => Sys2Proof.Machine.execRegRd region pair ch s
  | .regWr d0 d1 beLo beHi region pair ch => Sys2Proof.Machine.execRegWr d0 d1 beLo beHi region pair ch s
  | .txTlpWord w => Sys2Proof.Machine.execTxTlpWord w s
  | .txTlpLast w => Sys2Proof.Machine.execTxTlpLast w s
  | .fmt3dwNodata rest => Sys2Proof.Machine.execFmt3dwNodata rest s
  | .fmt4dwNodata rest => Sys2Proof.Machine.execFmt4dwNodata rest s
  | .fmt3dwData rest => Sys2Proof.Machine.execFmt3dwData rest s
  | .fmt4dwData rest => Sys2Proof.Machine.execFmt4dwData rest s
  | .fmtPrefix rest => Sys2Proof.Machine.execFmtPrefix rest s
  | .fmtRsvd101 rest => Sys2Proof.Machine.execFmtRsvd101 rest s
  | .fmtRsvd110 rest => Sys2Proof.Machine.execFmtRsvd110 rest s
  | .fmtRsvd111 rest => Sys2Proof.Machine.execFmtRsvd111 rest s
  | .mrd32 rest => Sys2Proof.Machine.execMrd32 rest s
  | .mrd64 rest => Sys2Proof.Machine.execMrd64 rest s
  | .mrdLk32 rest => Sys2Proof.Machine.execMrdLk32 rest s
  | .mrdLk64 rest => Sys2Proof.Machine.execMrdLk64 rest s
  | .mwr32 rest => Sys2Proof.Machine.execMwr32 rest s
  | .mwr64 rest => Sys2Proof.Machine.execMwr64 rest s
  | .iord rest => Sys2Proof.Machine.execIord rest s
  | .iowr rest => Sys2Proof.Machine.execIowr rest s
  | .cfgRd0 rest => Sys2Proof.Machine.execCfgRd0 rest s
  | .cfgWr0 rest => Sys2Proof.Machine.execCfgWr0 rest s
  | .cfgRd1 rest => Sys2Proof.Machine.execCfgRd1 rest s
  | .cfgWr1 rest => Sys2Proof.Machine.execCfgWr1 rest s
  | .msg rest => Sys2Proof.Machine.execMsg rest s
  | .msgD rest => Sys2Proof.Machine.execMsgD rest s
  | .cpl rest => Sys2Proof.Machine.execCpl rest s
  | .cplD rest => Sys2Proof.Machine.execCplD rest s
  | .cplLk rest => Sys2Proof.Machine.execCplLk rest s
  | .cplDLk rest => Sys2Proof.Machine.execCplDLk rest s
  | .fetchAdd32 rest => Sys2Proof.Machine.execFetchAdd32 rest s
  | .fetchAdd64 rest => Sys2Proof.Machine.execFetchAdd64 rest s
  | .swap32 rest => Sys2Proof.Machine.execSwap32 rest s
  | .swap64 rest => Sys2Proof.Machine.execSwap64 rest s
  | .cas32 rest => Sys2Proof.Machine.execCas32 rest s
  | .cas64 rest => Sys2Proof.Machine.execCas64 rest s
  | .lprfx rest => Sys2Proof.Machine.execLprfx rest s
  | .eprfx rest => Sys2Proof.Machine.execEprfx rest s

end Sys2Proof.Machine
end

