-- ==== Sys2Proof/Machine/Fetch.lean ====
section
/-! DEFINITION. What the machine dispatches next, and placing a unit where it will be dispatched next. With
no operation in progress the next unit is the oldest packet of the host command port
(spec/10_state.md R50); inside an operation it is the unit the operation is at: the word where a status word is
expected, the class nibble of the next data slot, the next record to send, the next response word. -/

namespace Sys2Proof.Machine

/-- What is due next: a unit to decode, with the state in which it runs, or an act of the operation that no
unit of the stream stands for (the end of a group, a completed TLP, a transport call, a phase). -/
inductive Due where
  | unit (p : Packet) (s : State)
  | act (t : Tick)
  deriving Repr

/-- The word where a status word is expected, as a unit (R161, R162). -/
def dueStatus (s : State) : Due :=
  match fetchWord s with
  | .word q s1 => .unit ⟨.rxStatus, [(frameValue s1.cfg.frameOrder q).toNat]⟩ s1
  | .ended s1 => .act (.go s1)
  | .waits s1 => .act (.waits s1)

/-- The class of the next data slot, as a unit; at the end of a group there is none (R163, R164). -/
def dueSlot (s : State) : Due :=
  if s.rx.slot = Lit.slotsPerGroup then .act (.go (endGroup s))
  else .unit ⟨.slot, [(slotNibble s.rx).toNat]⟩ s

/-- What is due inside RX_DECODE (R160). -/
def dueRx (s : State) : Due :=
  match s.rx.st with
  | .awaitingStatus => dueStatus s
  | .inData => dueSlot s
  | .inRemainder => dueSlot s
  | .tlpComplete => .act (.go (stepComplete s))

/-- What is due inside a register transaction: the next record in phase Issue, the next response word in
phase Harvest (R284, R285). -/
def dueReg (s : State) : Due :=
  match s.txn.phase with
  | .issue =>
    match s.txn.recs[s.txn.put]? with
    | some r => .unit ⟨.regReq, [r.toNat]⟩ s
    | none => .act (.go (flushBatch s))
  | .harvest =>
    match s.txn.pend with
    | q :: _ => .unit ⟨.regResp, [q.toNat]⟩ s
    | [] => .act (harvestTick s)
  | .idle => .act (.go (checkOperands s))
  | .wait => .act (.go (responseDelay s))
  | .done => .act (.go (finishPhase s))

/-- What is due next inside the operation in progress. -/
def due (s : State) : Due :=
  match s.ctl with
  | .idle => .act (.go s)
  | .rx _ => dueRx s
  | .send [] => .act (.go (sendFrame s))
  | .send (w :: rest) => .unit ⟨.txTlp, [(txTlpRec w rest.isEmpty).toNat]⟩ s
  | .reg => dueReg s

/-- The next host command taken from the port, if there is one (R50, R90). -/
def nextCommand (s : State) : Option (Packet × State) :=
  match s.port with
  | [] => none
  | p :: rest => some (p, { s with port := rest })

/-- The formats the host command port takes: host commands (R50), and a leader word for the codec (log entry
10). The units of the two streams cross the transport ports only. -/
def isHostFormat (f : Format) : Bool :=
  match f with
  | .hostCmd | .tlpFmt | .tlpType => true
  | .rxStatus | .slot | .regReq | .regResp | .txTlp => false

/-- No further step: the session is Fatal (R46, R303). -/
def hasHalted (s : State) : Bool :=
  match s.session with
  | .fatal _ => true
  | _ => false

/-! ### Placing a unit -/

/-- A buffer that holds one wire word, the cursor before it. -/
def oneWordBuffer (w : Word) (r : Receiver) : Receiver :=
  { r with rxbuf := Memory.store r.rxbuf 0 (bytesBe w), rd := 0, lim := 1 }

/-- The first word of a packet. -/
def Packet.firstWord (p : Packet) : Nat := p.words.headD 0

/-- A packet placed so that the very next step dispatches it (log entry 6). A host command, and a leader word
for the codec, is the oldest packet at the port. A unit of the receive stream stands in a one-word buffer
inside RX_DECODE (a slot class in the status field, its data word being zero); a record of the transmit stream
is the next one of a TLP_SEND or of a transaction in phase Issue; a response word is the one pending in the
harvest of a REG_READ of its pair. -/
def placePacket (p : Packet) (s : State) : State :=
  let n := Packet.firstWord p
  match p.fmt with
  | .hostCmd => { s with port := p :: s.port }
  | .tlpFmt => { s with port := p :: s.port }
  | .tlpType => { s with port := p :: s.port }
  | .rxStatus =>
    (s.setRx { oneWordBuffer (frameValue s.cfg.frameOrder (BitVec.ofNat 32 n)) s.rx with
      st := .awaitingStatus }).setCtl (.rx false)
  | .slot =>
    (s.setRx { oneWordBuffer 0 s.rx with
      st := .inData, slot := 0, sf := Lit.statusMarker ++ BitVec.ofNat 28 n }).setCtl (.rx false)
  | .regReq =>
    (s.setTxn { Txn.none with
      phase := .issue, isWrite := true, recs := [BitVec.ofNat 64 n] }).setCtl .reg
  | .regResp =>
    (s.setTxn { Txn.none with
      phase := .harvest, addr := (respAddr (BitVec.ofNat 32 n) &&& Lit.regAddrMask).toNat, cnt := 2, k := 1
      out := [0, 0], got := [false, false], pend := [BitVec.ofNat 32 n] }).setCtl .reg
  | .txTlp =>
    let r := BitVec.ofNat 64 n
    (s.setFrame []).setCtl
      (.send (if r.extractLsb' 0 32 = txTlpLow false then [r.extractLsb' 32 32, 0] else [r.extractLsb' 32 32]))

end Sys2Proof.Machine
end

