-- ==== Sys2Proof/Machine/Step.lean ====
section
/-! DEFINITION. One step of the machine: the next host command when no operation is in progress, else the next
dispatch of the operation. -/

namespace Sys2Proof.Machine

/-- A packet at the host command port decoded and run; one that spells no instruction there is refused
(R150). -/
def runCommand (p : Packet) (s : State) : Host.Outcome State Fault Refusal :=
  if isHostFormat p.fmt then
    match decode p with
    | .ok i => exec i s
    | .error r => .refused (.undecodable r)
  else .refused (.undecodable .notHostCommand)

/-- A unit of the operation in progress decoded and run. A word that spells no unit where a status word is
expected is illegal, not refused: the operation deals with it itself (R135: OutOfSync). -/
def runUnit (p : Packet) (u : State) (s : State) : Host.Outcome State Fault Refusal :=
  match decode p with
  | .ok i => exec i u
  | .error _ => .next (tick s).state

/-- The next dispatch of the operation in progress. -/
def resumeOp (s : State) : Host.Outcome State Fault Refusal :=
  match due s with
  | .unit p u => runUnit p u s
  | .act t => .next t.state

/-- The next host command, or, when the host has issued none, no change. -/
def serveHost (s : State) : Host.Outcome State Fault Refusal :=
  match nextCommand s with
  | none => .next s
  | some (p, s1) => runCommand p s1

/-- One step. After Fatal there is none (R303). -/
def step (s : State) : Host.Outcome State Fault Refusal :=
  if hasHalted s then .fault .afterFatal
  else if cursorOk s.rx then if s.ctl = .idle then serveHost s else resumeOp s
  else .fault .cursorOutsideBuffer

/-- The state with the instruction whose bits are `w`, numbered as spec/opcode_table.json numbers them, placed
where the next step dispatches it (log entry 6). -/
def State.withFetchWord (s : State) (nbits w : Nat) : State := placePacket (tablePacket nbits w) s

end Sys2Proof.Machine
end

