-- ==== Sys2Proof/Machine/Views.lean ====
section
/-! DEFINITION. The field views of a header value: named fields read and written by shift and mask alone
(spec/41_tlp_codec.md R227), at the positions of spec/30_encoding.md R110, R113-R118, and the numeric codes
of spec/60_exceptions.md R340-R344 and spec/10_state.md R31. -/

namespace Sys2Proof.Machine

/-- A field of a header value: bits `lo + width - 1 .. lo` of header word `word`. -/
structure Field where
  word : Nat
  lo : Nat
  width : Nat
  deriving DecidableEq, Repr

/-- Header word `k` of a header value. -/
def Header.word (h : Header) (k : Nat) : Word :=
  match k with
  | 0 => h.w0
  | 1 => h.w1
  | 2 => h.w2
  | 3 => h.w3
  | _ => 0

/-- A header value with word `k` replaced. -/
def Header.setWord (h : Header) (k : Nat) (w : Word) : Header :=
  match k with
  | 0 => { h with w0 := w }
  | 1 => { h with w1 := w }
  | 2 => { h with w2 := w }
  | 3 => { h with w3 := w }
  | _ => h

/-- The mask of a field's bits inside its word. -/
def Field.mask (f : Field) : Word := BitVec.ofNat 32 ((2 ^ f.width - 1) * 2 ^ f.lo)

/-- Reading a field (R227). -/
def Field.get (f : Field) (h : Header) : Nat := (Header.word h f.word).toNat / 2 ^ f.lo % 2 ^ f.width

/-- Writing a field replaces exactly its bits (R227). -/
def Field.set (f : Field) (h : Header) (v : Nat) : Header :=
  Header.setWord h f.word
    ((Header.word h f.word &&& ~~~f.mask) ||| (BitVec.ofNat 32 (v % 2 ^ f.width * 2 ^ f.lo) &&& f.mask))

/-! Word 0, TLPDW0 (R110). -/

def fieldFmt : Field := ⟨0, 29, 3⟩
def fieldType : Field := ⟨0, 24, 5⟩
def fieldT9 : Field := ⟨0, 23, 1⟩
def fieldTC : Field := ⟨0, 20, 3⟩
def fieldT8 : Field := ⟨0, 19, 1⟩
def fieldAttr2 : Field := ⟨0, 18, 1⟩
def fieldLN : Field := ⟨0, 17, 1⟩
def fieldTH : Field := ⟨0, 16, 1⟩
def fieldTD : Field := ⟨0, 15, 1⟩
def fieldEP : Field := ⟨0, 14, 1⟩
def fieldAttr : Field := ⟨0, 12, 2⟩
def fieldAT : Field := ⟨0, 10, 2⟩
def fieldLength : Field := ⟨0, 0, 10⟩

/-! Word 1 of a request, REQDW1 (R113); for messages bits 7..0 are the message code. -/

def fieldReqID : Field := ⟨1, 16, 16⟩
def fieldTag : Field := ⟨1, 8, 8⟩
def fieldLastBE : Field := ⟨1, 4, 4⟩
def fieldFirstBE : Field := ⟨1, 0, 4⟩
def fieldMsgCode : Field := ⟨1, 0, 8⟩

/-! Word 2 of a configuration request, CFGDW2 (R114). -/

def fieldCfgBus : Field := ⟨2, 24, 8⟩
def fieldCfgDev : Field := ⟨2, 19, 5⟩
def fieldCfgFn : Field := ⟨2, 16, 3⟩
def fieldExtReg : Field := ⟨2, 8, 4⟩
def fieldReg : Field := ⟨2, 2, 6⟩

/-! Words 1 and 2 of a completion, CPLDW1 and CPLDW2 (R115). -/

def fieldCplID : Field := ⟨1, 16, 16⟩
def fieldCplStatus : Field := ⟨1, 13, 3⟩
def fieldBCM : Field := ⟨1, 12, 1⟩
def fieldByteCount : Field := ⟨1, 0, 12⟩
def fieldCplReqID : Field := ⟨2, 16, 16⟩
def fieldCplTag : Field := ⟨2, 8, 8⟩
def fieldLowAddr : Field := ⟨2, 0, 7⟩

/-! Address words, MEMADDR (R116): Address[31:2] in word 2 of 3, or Address[63:32] and [31:2] in words 2 and 3 of 4. -/

def fieldAddr32 : Field := ⟨2, 2, 30⟩
def fieldAddrHigh : Field := ⟨2, 0, 32⟩
def fieldAddrLow : Field := ⟨3, 2, 30⟩

/-! A prefix word, TLPPFX (R117). -/

def fieldPfxEnd : Field := ⟨0, 28, 1⟩
def fieldPfxSub : Field := ⟨0, 24, 4⟩

/-- The fields that TLPDW0 names, all 13 of them; `fieldT9` and `fieldT8` are R/T9 and R/T8 (R110). -/
def leaderFields : List Field :=
  [fieldFmt, fieldType, fieldT9, fieldTC, fieldT8, fieldAttr2, fieldLN, fieldTH, fieldTD, fieldEP, fieldAttr,
    fieldAT, fieldLength]

/-- The fields of a view beyond word 0, by the type group and the header word count (R113-R117, R240-R246). -/
def viewFields (v : View) (hw : HdrWords) : List Field :=
  let req := [fieldReqID, fieldTag, fieldLastBE, fieldFirstBE]
  let addr := match hw with | .dw3 => [fieldAddr32] | .dw4 => [fieldAddrHigh, fieldAddrLow]
  match v with
  | .memReq => req ++ addr
  | .ioReq => req ++ [fieldAddr32]
  | .cfgReq => req ++ [fieldCfgBus, fieldCfgDev, fieldCfgFn, fieldExtReg, fieldReg]
  | .message => [fieldReqID, fieldTag, fieldMsgCode]
  | .completion =>
    [fieldCplID, fieldCplStatus, fieldBCM, fieldByteCount, fieldCplReqID, fieldCplTag, fieldLowAddr]
  | .atomicReq => req ++ addr
  | .prefixView => [fieldPfxEnd, fieldPfxSub]

/-- The view of a leader word, by its pair of Fmt and Type (R112); `none` for a pair outside the table, which
is handled by its Fmt alone (I20). -/
def viewOf (w : Word) : Option View :=
  match decodeTlpType w with
  | .error _ => none
  | .ok i =>
    match i with
    | .mrd32 _ | .mrd64 _ | .mrdLk32 _ | .mrdLk64 _ | .mwr32 _ | .mwr64 _ => some .memReq
    | .iord _ | .iowr _ => some .ioReq
    | .cfgRd0 _ | .cfgWr0 _ | .cfgRd1 _ | .cfgWr1 _ => some .cfgReq
    | .msg _ | .msgD _ => some .message
    | .cpl _ | .cplD _ | .cplLk _ | .cplDLk _ => some .completion
    | .fetchAdd32 _ | .fetchAdd64 _ | .swap32 _ | .swap64 _ | .cas32 _ | .cas64 _ => some .atomicReq
    | .lprfx _ | .eprfx _ => some .prefixView
    | _ => none

/-- The completion status names of R118. -/
inductive CplStatus where
  | sc
  | ur
  | crs
  | ca
  | reserved
  deriving DecidableEq, Repr

/-- The name of a completion status code (R118). The block does not interpret it. -/
def cplStatusName (v : Nat) : CplStatus :=
  if v = 0 then .sc else if v = 1 then .ur else if v = 2 then .crs else if v = 4 then .ca else .reserved

/-! ### Numeric codes -/

/-- R31. -/
def rxStateCode (s : RxState) : Nat :=
  match s with
  | .awaitingStatus => 0
  | .inData => 1
  | .inRemainder => 2
  | .tlpComplete => 3

/-- R341. -/
def corruptCode (r : CorruptReason) : Nat :=
  match r with
  | .lengthMismatch => 0
  | .overflow => 1
  | .invalidHeader => 2
  | .noHeader => 3
  | .retryExhausted => 4

/-- R342. -/
def codecCode (c : CodecStatus) : Nat :=
  match c with
  | .ok => 0
  | .truncated => 1
  | .invalidFormat => 2
  | .bufferTooSmall => 3
  | .lengthMismatch => 4
  | .transportError => 5

/-- R343. -/
def regCode (c : RegStatus) : Nat :=
  match c with
  | .ok => 0
  | .rangeError => 1
  | .badOperand => 2
  | .transportError => 3
  | .incomplete => 4

/-- R344; the session before SESSION_INIT has no code. -/
def sessionCode (x : Session) : Option Nat :=
  match x with
  | .uninit => none
  | .ready => some 0
  | .fatal .versionReadFailed => some 1
  | .fatal .versionMismatch => some 2
  | .fatal .filterClearFailure => some 3

/-- The code of an outcome, by the table of its operation (R340, R342-R344); the values of TLP_HDRLEN and
CFG_REGOFF and the plain Ok have code 0 (R342: Ok, produced by all). -/
def replyCode (r : Reply) : Nat :=
  match r with
  | .noData => 0
  | .outOfSync => 1
  | .complete _ => 2
  | .corrupt _ _ => 3
  | .ok => 0
  | .hdrLen _ => 0
  | .tlpView _ _ => 0
  | .decoded (.ok _) => 0
  | .decoded (.error e) => codecCode e
  | .encoded (.ok _) => 0
  | .encoded (.error e) => codecCode e
  | .sent c => codecCode c
  | .regOff _ => 0
  | .regRead c _ => regCode c
  | .regWrite c => regCode c
  | .session x => (sessionCode x).getD 0

end Sys2Proof.Machine
end

