-- ==== Sys2Proof/Safety.lean ====
section
/-! DEFINITION. What the claims speak of: the invariants that hold between steps (spec/10_state.md R40 and
the rules named at each clause), the views of the transmit stream and of the destination buffer, which
instructions may write what, and the streams a claim feeds to the machine. -/

namespace Sys2Proof.Machine

/-- Inside RX_DECODE. -/
def inRx (c : Ctl) : Bool :=
  match c with
  | .rx _ => true
  | _ => false

/-- The receiver stands inside a group, or has just taken its last word: states other than AwaitingStatus. -/
def inGroup (st : RxState) : Bool := !decide (st = .awaitingStatus)

/-- The invariants of the receiver (R40.1, R40.2, R40.3, R40.6, R40.7; R30 for the length of `acc` and for
`Known(k)` with 1 ≤ k; R250 for `S.pfx ≤ S.n`; R173 for the retry bound). -/
abbrev Receiver.Inv (p : Params) (r : Receiver) : Prop :=
  r.n ≤ p.accCap ∧ r.acc.length = p.accCap ∧ r.slot ≤ 7 ∧ r.rd ≤ r.lim ∧ r.lim ≤ Lit.rxBufWords ∧
    (r.exp = .unknown → r.pfx = r.n ∨ r.ovf = true) ∧
    (r.n = 0 → r.exp = .unknown ∧ r.pfx = 0 ∧ r.ovf = false) ∧
    r.exp ≠ .known 0 ∧ r.pfx ≤ r.n ∧ (∀ m ∈ p.maxEmptyRetries, r.retries ≤ m)

/-- R40.5 with R250: inside a group the marker nibble stands right above the unconsumed class nibbles of the
accepted status word, and nothing above it; after seven shifts the field is 0xE. -/
abbrev Receiver.FieldInv (r : Receiver) : Prop :=
  inGroup r.st = true → r.sf.toNat / 2 ^ (28 - 4 * r.slot) = 0xE

/-- The raw transfer buffer is in canonical form and inside its 1040 bytes (R70). -/
abbrev Receiver.BufInv (r : Receiver) : Prop :=
  Memory.wf r.rxbuf ∧ ∀ c ∈ r.rxbuf, c.1 < Lit.rxBufBytes

/-- A record that the block may emit: it decodes to a well-formed register request (R126, R135). -/
def recLegal (r : Rec) : Bool :=
  match decodeRegReq r with
  | .ok i => wellFormed i
  | .error _ => false

/-- The invariant of the machine: the receiver's; R40.4, TlpComplete only inside RX_DECODE; R44, a transaction
only inside a register operation; the canonical form of both byte spaces; R126, every record built is one the
block may emit; R280, the count of a write is the number of its data bytes. -/
abbrev State.Inv (s : State) : Prop :=
  s.cfg.wf ∧ Receiver.Inv s.cfg s.rx ∧ Receiver.FieldInv s.rx ∧ Receiver.BufInv s.rx ∧ Memory.wf s.hostMem ∧
    (s.rx.st = .tlpComplete → inRx s.ctl = true) ∧ (s.ctl ≠ .reg → s.txn = Txn.none) ∧
    s.txn.recs.all recLegal = true ∧ (s.txn.isWrite = true → s.txn.data.length = s.txn.cnt)

/-- The bytes an event put on the transmit stream. -/
def eventTx (e : PortEvent) : List Byte :=
  match e with
  | .wrote bs => bs
  | .writeFailed bs => bs
  | .delayed _ => []
  | .didRead _ => []

/-- `TXSTREAM`: the bytes of all TransportWrites, one stream in call order (R70, R91). -/
def txStream (s : State) : List Byte := s.trace.flatMap eventTx

/-- The byte an address of the destination buffer of TLP_ENCODE holds. -/
def hostByte (s : State) (a : Nat) : Byte := Memory.read s.hostMem a

/-- A safe step: it does not stop with a fault or a refusal. -/
def isSafe (o : Host.Outcome State Fault Refusal) : Bool :=
  match o with
  | .next _ => true
  | .fault _ => false
  | .refused _ => false

/-! ### Which instructions may write what -/

/-- The instructions that act for the receiver: RX_DECODE and its kin, SESSION_INIT with its RX_RESET, and the
units of the receive stream, a leader word among them (R160-R178, R300). -/
def actsOnReceiver (i : Instr) : Bool :=
  match i with
  | .rxDecode | .rxDiscard | .rxReset | .rxResync | .rxNext | .sessionInit | .status _ | .filler => true
  | .slotTlpData _ | .slotTlpLast _ | .slotNonTlp01 _ | .slotNonTlp10 _ | .slotNonTlp11 _ => true
  | .fmt3dwNodata _ | .fmt4dwNodata _ | .fmt3dwData _ | .fmt4dwData _ => true
  | .fmtPrefix _ | .fmtRsvd101 _ | .fmtRsvd110 _ | .fmtRsvd111 _ => true
  | .mrd32 _ | .mrd64 _ | .mrdLk32 _ | .mrdLk64 _ | .mwr32 _ | .mwr64 _ | .iord _ | .iowr _ => true
  | .cfgRd0 _ | .cfgWr0 _ | .cfgRd1 _ | .cfgWr1 _ | .msg _ | .msgD _ => true
  | .cpl _ | .cplD _ | .cplLk _ | .cplDLk _ => true
  | .fetchAdd32 _ | .fetchAdd64 _ | .swap32 _ | .swap64 _ | .cas32 _ | .cas64 _ | .lprfx _ | .eprfx _ => true
  | .tlpHdrlen _ | .tlpDecode _ | .tlpEncode _ _ | .tlpSend _ _ | .cfgRegoff _ => false
  | .regRead _ _ _ _ | .regWrite _ _ _ _ | .regRead8 _ _ | .regClrbits8 _ _ _ => false
  | .regresp _ _ _ | .regRd _ _ _ | .regWr _ _ _ _ _ _ _ | .txTlpWord _ | .txTlpLast _ => false

/-- The instructions that may call TransportWrite: TLP_SEND, the register operations and the records of one
(R70: `TXSTREAM` is reached by "TransportWrite from TLP_SEND, REG_READ and REG_WRITE"). -/
def maySend (i : Instr) : Bool :=
  match i with
  | .tlpSend _ _ | .regRead _ _ _ _ | .regWrite _ _ _ _ | .sessionInit | .regRead8 _ _ => true
  | .regClrbits8 _ _ _ | .regRd _ _ _ | .regWr _ _ _ _ _ _ _ => true
  | .rxDecode | .rxDiscard | .rxReset | .tlpHdrlen _ | .tlpDecode _ | .tlpEncode _ _ | .cfgRegoff _ => false
  | .rxResync | .rxNext | .status _ | .filler | .slotTlpData _ | .slotTlpLast _ => false
  | .slotNonTlp01 _ | .slotNonTlp10 _ | .slotNonTlp11 _ | .regresp _ _ _ | .txTlpWord _ | .txTlpLast _ => false
  | .fmt3dwNodata _ | .fmt4dwNodata _ | .fmt3dwData _ | .fmt4dwData _ => false
  | .fmtPrefix _ | .fmtRsvd101 _ | .fmtRsvd110 _ | .fmtRsvd111 _ => false
  | .mrd32 _ | .mrd64 _ | .mrdLk32 _ | .mrdLk64 _ | .mwr32 _ | .mwr64 _ | .iord _ | .iowr _ => false
  | .cfgRd0 _ | .cfgWr0 _ | .cfgRd1 _ | .cfgWr1 _ | .msg _ | .msgD _ => false
  | .cpl _ | .cplD _ | .cplLk _ | .cplDLk _ => false
  | .fetchAdd32 _ | .fetchAdd64 _ | .swap32 _ | .swap64 _ | .cas32 _ | .cas64 _ | .lprfx _ | .eprfx _ => false

/-- An outcome with its next state changed. -/
def mapNext (f : State → State) (o : Host.Outcome State Fault Refusal) : Host.Outcome State Fault Refusal :=
  match o with
  | .next s => .next (f s)
  | .fault r => .fault r
  | .refused r => .refused r

/-- `n` steps, as long as the machine answers a next state. -/
def stepN (n : Nat) (s : State) : State :=
  match n with
  | 0 => s
  | k + 1 =>
    match step s with
    | .next t => stepN k t
    | _ => s

/-! ### Streams that a claim feeds to the machine -/

/-- A slot of a group: its class nibble and its word (R102, R105). -/
abbrev Slot := Nibble × Word

/-- An answer without a whole word: an empty read (R80, R359). -/
def isShort (a : ReadAnswer) : Bool :=
  match a with
  | .bytes bs => decide (bs.length < 4)
  | .tErr => true

/-- The next `n` TransportWrites will be accepted. -/
def acceptsWrites (n : Nat) (s : State) : Bool :=
  decide (n ≤ s.txFeed.length) && (s.txFeed.take n).all fun a => decide (a = .ok)

/-- The slot field of a status word: the class of slot k in nibble k (R101, R102). -/
def slotField (sl : List Slot) : Nat :=
  match sl with
  | [] => 0
  | x :: rest => x.1.toNat + 16 * slotField rest

/-- The status word of a group with these slots (R101). -/
def statusWord (sl : List Slot) : Word := BitVec.ofNat 32 (0xE * 2 ^ 28 + slotField sl)

/-- The wire words of a group: its status word, then one word a slot (R105, R75, R74). -/
def groupWords (o : FrameOrder) (sl : List Slot) : List Word :=
  frameValue o (statusWord sl) :: sl.map (·.2)

/-- The wire words of a stream of groups, each after a number of filler words (R105, R104). -/
def streamWords (o : FrameOrder) (gs : List (Nat × List Slot)) : List Word :=
  gs.flatMap fun g => List.replicate g.1 (frameValue o 0x55556666) ++ groupWords o g.2

/-- The TLPs that slots carry, each ended by a TLP_LAST slot, without the words of NON_TLP slots; `cur` holds
the words of the TLP begun before (R103, R176). -/
def slotTlps (cur : List Word) (sl : List Slot) : List (List Word) :=
  match sl with
  | [] => []
  | x :: rest =>
    if isLast x.1 then (cur ++ [x.2]) :: slotTlps [] rest
    else slotTlps (if isTlp x.1 then cur ++ [x.2] else cur) rest

/-- The next of these slots is a TLP slot. -/
def nextIsTlp (sl : List Slot) : Bool :=
  match sl with
  | [] => false
  | x :: _ => isTlp x.1

/-- The receiver stands where these slots of the current group come next: inside a group with their classes in
the status field, or, for none, before a status word (R32, R33, R167). -/
abbrev standsBefore (r : Receiver) (sl : List Slot) : Prop :=
  (r.st = .awaitingStatus ∧ sl = []) ∨
    (r.slot + sl.length = 7 ∧ (∀ k < sl.length, nib r.sf k = (sl.getD k (0, 0)).1) ∧
      (r.st = .inData ∨ (r.st = .inRemainder ∧ nextIsTlp sl = false)))

/-- The words of the raw transfer buffer not yet consumed (R37). -/
def bufferedWords (r : Receiver) : List Word :=
  (List.range (r.lim - r.rd)).map fun k => bufWord r (r.rd + k)

/-- `n` RX_DECODE operations, one after another, as long as the machine answers a next state. -/
def decodeTimes (n : Nat) (s : State) : State :=
  match n with
  | 0 => s
  | k + 1 =>
    match exec .rxDecode s with
    | .next t => decodeTimes k t
    | _ => s

/-- The responses placed one after another, in scan order (R285, R287). -/
def placeAll (qs : List Word) (t : Txn) : Txn :=
  qs.foldl (fun u q => place (respAddr q) (byteOf q 2) (byteOf q 3) u) t

/-- A read transaction after harvest reads that brought these buffers, from nothing matched (R288, R290). -/
def harvested (o : FrameOrder) (addr cnt ch : Nat) (bss : List (List Byte)) : Txn :=
  placeAll (bss.flatMap fun bs => scan o ch (bs.take Lit.rxBufBytes))
    { Txn.none with addr := addr, cnt := cnt, out := List.replicate cnt 0, got := List.replicate cnt false }

/-- After each of these reads the harvest goes on as far as the bytes decide: some byte is unmatched, and the
read was no empty one (R288). -/
abbrev harvestOpen (o : FrameOrder) (addr cnt ch : Nat) (bss : List (List Byte)) : Prop :=
  ∀ k < bss.length, allGot (harvested o addr cnt ch (bss.take (k + 1))) = false ∧ 4 ≤ (bss.getD k []).length

/-- These are the reads of one whole harvest: it goes on after each but the last, and the last ends it, with
every byte matched, as the last of `HARVEST_READS`, or as an empty read (R288). -/
abbrev harvestEnds (p : Params) (addr cnt ch : Nat) (bss : List (List Byte)) : Prop :=
  bss ≠ [] ∧ bss.length ≤ p.harvestReads ∧ harvestOpen p.frameOrder addr cnt ch bss.dropLast ∧
    (allGot (harvested p.frameOrder addr cnt ch bss) = true ∨ bss.length = p.harvestReads ∨
      (bss.getLastD []).length < 4)

/-- What the wait and these harvest reads leave in the transport's log (R290, R288). -/
def harvestEvents (bss : List (List Byte)) : List PortEvent :=
  .delayed 10 :: bss.map fun bs => .didRead (.bytes (bs.take 1040))

/-- The batches a list of records is written in: each full but the last (R284; `size` is a multiple of the
record's 8 bytes). -/
def batchesOf (size : Nat) (wire : List Byte) : List (List Byte) :=
  (List.range ((wire.length + size - 1) / size)).map fun i => (wire.drop (i * size)).take size

/-- The bytes REG_READ puts on the transmit stream (R282, R283). -/
def readWire (addr cnt : Nat) (region : Half) (ch : Nat) : List Byte :=
  (pairs addr cnt).flatMap fun a => recBytes (readRec region ch a)

/-- The bytes REG_WRITE puts on the transmit stream (R282, R283). -/
def writeWire (addr : Nat) (data : List Byte) (region : Half) (ch : Nat) : List Byte :=
  (pairs addr data.length).flatMap fun a => recBytes (writeRec addr data region ch a)

end Sys2Proof.Machine
end

