-- ==== Sys2Proof/Certificates/Slice0/Obligations.lean ====
section
/-! DEFINITION. The statements for the provers, each a Prop about the machine, with the rule of spec/ it
formalises. Where a statement rests on a convention of the model, it names the log entry. -/

open Sys2Proof Sys2Proof.Machine

/-! ### Encoding -/

/-- R100, R150, R101, R102, R125-R128, R111, R112: decoding what the encoder writes gives the instruction back,
for every instruction and every operand; the encoder writes nothing exactly for the four pseudo-instructions. -/
def Obligations.DecodeEncode : Prop :=
  (∀ i p, encode i = some p → decode p = .ok i) ∧
    ∀ i, encode i = none ↔ (∃ a r, i = .regRead8 a r) ∨ (∃ a m r, i = .regClrbits8 a m r) ∨ i = .rxResync ∨ i = .rxNext

/-- R100-R104, R125-R128, R111, R112: a wire unit that decodes is the one the encoder writes for what it
decodes to, so no two units of one format decode alike and no bit of a unit is dropped. -/
def Obligations.EncodeDecode : Prop :=
  ∀ p i, p.fmt ≠ .hostCmd → decode p = .ok i → encode i = some p

/-- Sample words written out from the tables of spec/30_encoding.md decode to what they stand for. -/
def Obligations.DecodeSampleWords : Prop :=
  decode ⟨.hostCmd, [0x01]⟩ = .ok .rxDecode ∧
    decode ⟨.hostCmd, [0x20, 0x0008, 1, 0x0000, 3]⟩ = .ok (.regRead 8 1 0 3) ∧
    decode ⟨.rxStatus, [0xEFFF4000]⟩ = .ok (.status 0xFFF4000) ∧
    decode ⟨.rxStatus, [0x55556666]⟩ = .ok .filler ∧
    decode ⟨.slot, [0xC]⟩ = .ok (.slotTlpLast 1) ∧
    decode ⟨.slot, [0x3]⟩ = .ok (.slotNonTlp11 0) ∧
    decode ⟨.regReq, [0x0000000000081377]⟩ = .ok (.regRd 0 4 3) ∧
    decode ⟨.regReq, [0x002F00FF80182377]⟩ = .ok (.regWr 0x00 0x2F 0x00 0xFF 2 12 3) ∧
    decode ⟨.regResp, [0x00080400]⟩ = .ok (.regresp 0x0008 0x04 0x00) ∧
    decode ⟨.txTlp, [0x4200000000000477]⟩ = .ok (.txTlpLast 0x42000000) ∧
    decode ⟨.tlpFmt, [0x44000001]⟩ = .ok (.fmt3dwData 0x04000001) ∧
    decode ⟨.tlpType, [0x44000001]⟩ = .ok (.cfgWr0 0x000001)

/-- R150: a host command whose code the table does not hold is refused, whatever its operands. -/
def Obligations.UnknownCodeRefused : Prop :=
  ∀ (s : State) code ops rest, hasHalted s = false → cursorOk s.rx = true → s.ctl = .idle →
    s.port = ⟨.hostCmd, code :: ops⟩ :: rest →
    code ∉ [0x01, 0x02, 0x03, 0x10, 0x11, 0x12, 0x13, 0x14, 0x20, 0x21, 0x30] →
    step s = .refused (.undecodable (.unknownCode code))

/-! ### Steps -/

/-- A step runs the decoded packet of the host command port: the packet taken from the port, then `exec` of what
it decodes to. The port takes host commands (R50, R150) and, as the model's choice, a leader word for the codec
(`isHostFormat`: log entry 10). -/
def Obligations.StepRunsHostCommand : Prop :=
  ∀ (s : State) p rest i, hasHalted s = false → cursorOk s.rx = true → s.ctl = .idle → s.port = p :: rest →
    isHostFormat p.fmt = true → decode p = .ok i →
    step s = exec i { s with port := rest }

/-- A step inside an operation runs the decoded unit the operation is at: the word where a status word is
expected (after the cursor has moved past it), the class nibble of the next data slot, the next response word,
the next record. -/
def Obligations.StepRunsDueUnit : Prop :=
  ∀ s : State, hasHalted s = false → cursorOk s.rx = true →
    (∀ b i, s.ctl = .rx b → s.rx.st = .awaitingStatus → s.rx.rd ≠ s.rx.lim →
      decode ⟨.rxStatus, [(frameValue s.cfg.frameOrder (bufWord s.rx s.rx.rd)).toNat]⟩ = .ok i →
      step s = exec i { s with rx := { s.rx with rd := s.rx.rd + 1 } }) ∧
    (∀ b i, s.ctl = .rx b → s.rx.st = .inData ∨ s.rx.st = .inRemainder → s.rx.slot ≠ 7 →
      decode ⟨.slot, [s.rx.sf.toNat % 16]⟩ = .ok i → step s = exec i s) ∧
    (∀ q rest i, s.ctl = .reg → s.txn.phase = .harvest → s.txn.pend = q :: rest →
      decode ⟨.regResp, [q.toNat]⟩ = .ok i → step s = exec i s) ∧
    (∀ r i, s.ctl = .reg → s.txn.phase = .issue → s.txn.recs[s.txn.put]? = some r →
      decode ⟨.regReq, [r.toNat]⟩ = .ok i → step s = exec i s) ∧
    ∀ w rest i, s.ctl = .send (w :: rest) →
      decode ⟨.txTlp, [(txTlpRec w rest.isEmpty).toNat]⟩ = .ok i → step s = exec i s

/-- Inside an operation, decoding the unit and running it is what the operation's own step rules do
(R160, R284, R285, R225): the machine by instructions and the machine by rules agree. -/
def Obligations.StepAgreesWithRules : Prop :=
  ∀ s : State, hasHalted s = false → s.ctl ≠ .idle → s.Inv → step s = .next (tick s).state

/-- R402 with R358: an operation that `exec` runs in one step is the same operation dispatched word by word; that
there are these two ways to run it is the model's choice (log entry 1). -/
def Obligations.OperationIsItsSteps : Prop :=
  ∀ s : State, hasHalted s = false → s.Inv → ∃ n, runOp s = stepN n s

/-- R40, R30, R126, R44 and the canonical form of the byte spaces: every step keeps the invariant. -/
def Obligations.StepKeepsInvariant : Prop :=
  ∀ (s : State) t, s.Inv → step s = .next t → t.Inv

/-- R60, R381: the reset state has the invariant and the values the spec gives, the cursor empty and no
transaction. -/
def Obligations.ResetState : Prop :=
  State.reset.Inv ∧ State.reset.rx.st = .awaitingStatus ∧ State.reset.rx.sf = 0 ∧ State.reset.rx.slot = 0 ∧
    State.reset.rx.n = 0 ∧ State.reset.rx.pfx = 0 ∧ State.reset.rx.exp = .unknown ∧ State.reset.rx.ovf = false ∧
    State.reset.rx.rd = 0 ∧ State.reset.rx.lim = 0 ∧ State.reset.rx.retries = 0 ∧
    State.reset.session = .uninit ∧ State.reset.txn = Txn.none ∧ State.reset.ctl = .idle

/-- R79: no step changes a parameter, `FRAME_ORDER` among them. -/
def Obligations.StepKeepsConfig : Prop :=
  ∀ (s : State) t, step s = .next t → t.cfg = s.cfg

/-- R90, R91, R349: what has crossed a port stays as it was and in its order: a step only adds to the outcomes,
to the diagnostics and to the transport events, and takes the environment's draws from the front. -/
def Obligations.StepHistoriesGrow : Prop :=
  ∀ (s : State) t, step s = .next t →
    (∃ l, t.replies = s.replies ++ l) ∧ (∃ l, t.diag = s.diag ++ l) ∧ (∃ l, t.trace = s.trace ++ l) ∧
      (∃ l, s.rxFeed = l ++ t.rxFeed) ∧ (∃ l, s.txFeed = l ++ t.txFeed) ∧ ∃ l, s.port = l ++ t.port

/-- R303: from a Fatal session there is no step. -/
def Obligations.FatalHasNoStep : Prop :=
  ∀ (s : State) c, s.session = .fatal c → step s = .fault .afterFatal

/-- R358: a waiting operation keeps all its state, and so does a block without a command; and "A blocking
transport read is the only waiting state": a dispatch waits only with no answer left to read, for a word of the
receive stream or a read of a harvest, the empty reads before the wait having changed the cursor, the retries
(R38) and the log of the reads alone; while a write with no listed answer returns all the same (its answer is
then a free value, log entry 9): at the end of a TLP_SEND, before a record that does not fit the batch, and for
the last batch. How a wait shows in a step is log entry 1. -/
def Obligations.WaitingKeepsState : Prop :=
  ∀ s : State, hasHalted s = false → cursorOk s.rx = true →
    (s.ctl = .idle → s.port = [] → step s = .next s) ∧
    (∀ b, s.ctl = .rx b → s.rxFeed = [] → s.rx.rd = s.rx.lim →
      s.rx.st = .awaitingStatus ∨ ((s.rx.st = .inData ∨ s.rx.st = .inRemainder) ∧ s.rx.slot ≠ 7) →
      step s = .next s) ∧
    (s.ctl = .reg → s.txn.phase = .harvest → s.txn.pend = [] → s.rxFeed = [] →
      s.txn.k < s.cfg.harvestReads → (∃ b ∈ s.txn.got, b = false) → s.txn.k = 0 ∨ 4 ≤ s.txn.buf.length →
      step s = .next s) ∧
    (∀ t, tick s = .waits t →
      t = { s with
        rx := if s.rxFeed = [] then s.rx
          else { s.rx with rd := 0, lim := 0, retries := s.rx.retries + s.rxFeed.length }
        rxFeed := [], trace := s.trace ++ s.rxFeed.map fun a => .didRead (clipAnswer a) } ∧
      ((inRx s.ctl = true ∧ s.rx.rd = s.rx.lim) ∨ (s.ctl = .reg ∧ s.txn.phase = .harvest ∧ s.rxFeed = []))) ∧
    (s.ctl = .send [] → ∃ t, step s = .next t ∧ t.ctl = .idle) ∧
    (∀ r, s.ctl = .reg → s.txn.phase = .issue → s.txn.recs[s.txn.put]? = some r →
      s.cfg.txBatchBytes < s.txn.batch.length + 8 →
      ∃ t, step s = .next t ∧ (t.txn.put = s.txn.put + 1 ∨ t.txn.phase = .done)) ∧
    (s.ctl = .reg → s.txn.phase = .issue → s.txn.put = s.txn.recs.length →
      ∃ t, step s = .next t ∧ (t.txn.phase = .wait ∨ t.txn.phase = .done))

/-! ### The receiver -/

/-- R177, R152: RX_DISCARD moves the cursor to the end of the buffer and changes nothing else; `rx.resync` is
the same operation. -/
def Obligations.RxDiscardResult : Prop :=
  ∀ s : State, exec .rxDiscard s = .next { s with
      rx := { s.rx with rd := s.rx.lim }, replies := s.replies ++ [.ok], ctl := .idle } ∧
    exec .rxResync s = .next { s with
      rx := { s.rx with rd := s.rx.lim }, replies := s.replies ++ [.ok], ctl := .idle }

/-- R178, R60, R381: RX_RESET gives every receiver field its reset value, leaves the session and everything else,
and run twice is the same as once. That the contents of `acc` and `rxbuf`, unspecified at reset, stay as they are
is the model's choice (log entry 7). -/
def Obligations.RxResetResult : Prop :=
  ∀ s : State,
    let t : State := { s with
      rx := { s.rx with
        st := .awaitingStatus, sf := 0, slot := 0, n := 0, pfx := 0, exp := .unknown, ovf := false
        rd := 0, lim := 0, retries := 0 }
      replies := s.replies ++ [.ok], ctl := .idle }
    exec .rxReset s = .next t ∧ exec .rxReset t = .next { t with replies := t.replies ++ [.ok] }

/-- R162, R32, R33, R104: a status word is loaded whole into `S.sf`, the slot index becomes 0 and the state
InData; a filler word is skipped. -/
def Obligations.StatusAndFillerUnits : Prop :=
  ∀ s : State, (∀ slots, exec (.status slots) s = .next { s with
      rx := { s.rx with sf := BitVec.ofNat 32 (0xE * 2 ^ 28 + slots.toNat), slot := 0, st := .inData } }) ∧
    exec .filler s = .next s

/-- R164, R165, R167, R161: a TLP slot in InData appends its word, shifts the field, counts the slot and chooses
the next state by the class of the next slot; a TLP_LAST slot ends in TlpComplete. Bit 3 of the class is
ignored (R102). -/
def Obligations.TlpSlotUnits : Prop :=
  ∀ (s : State) b3, cursorOk s.rx = true → s.rx.rd ≠ s.rx.lim → s.rx.slot < 7 → s.rx.st = .inData →
    let a := append s.cfg.accCap (bufWord s.rx s.rx.rd) s.rx
    let after : Receiver := { a with rd := s.rx.rd + 1, sf := s.rx.sf >>> 4, slot := s.rx.slot + 1 }
    exec (.slotTlpData b3) s = .next { s with rx := { after with
        st := if s.rx.sf.toNat / 16 % 4 = 0 ∧ a.ovf = false then .inData else .inRemainder } } ∧
      exec (.slotTlpLast b3) s = .next { s with rx := { after with st := .tlpComplete } }

/-- R164, R166, R165, R167: a NON_TLP slot's word is discarded in InData and in InRemainder; in InRemainder a TLP
word is discarded too, and a TLP_LAST slot still ends in TlpComplete. The accumulator is untouched. -/
def Obligations.DiscardedSlotUnits : Prop :=
  ∀ s : State, cursorOk s.rx = true → s.rx.rd ≠ s.rx.lim → s.rx.slot < 7 →
    let after : Receiver := { s.rx with rd := s.rx.rd + 1, sf := s.rx.sf >>> 4, slot := s.rx.slot + 1 }
    let goesOn : State := { s with rx := { after with
      st := if s.rx.sf.toNat / 16 % 4 = 0 ∧ s.rx.ovf = false then .inData else .inRemainder } }
    (s.rx.st = .inData ∨ s.rx.st = .inRemainder → ∀ hi, exec (.slotNonTlp01 hi) s = .next goesOn ∧
        exec (.slotNonTlp10 hi) s = .next goesOn ∧ exec (.slotNonTlp11 hi) s = .next goesOn) ∧
      (s.rx.st = .inRemainder → ∀ b3, exec (.slotTlpData b3) s = .next goesOn ∧
        exec (.slotTlpLast b3) s = .next { s with rx := { after with st := .tlpComplete } })

/-- R163: at slot 7 every class returns to AwaitingStatus, with no word consumed and nothing else changed. -/
def Obligations.EndOfGroup : Prop :=
  ∀ (s : State) b3 hi, cursorOk s.rx = true → s.rx.slot = 7 →
    let t : State := { s with rx := { s.rx with st := .awaitingStatus } }
    exec (.slotTlpData b3) s = .next t ∧ exec (.slotTlpLast b3) s = .next t ∧
      exec (.slotNonTlp01 hi) s = .next t ∧ exec (.slotNonTlp10 hi) s = .next t ∧
      exec (.slotNonTlp11 hi) s = .next t

/-- R168, R169, R221: Append stores the word at `S.n` and, while the expected count is unknown, counts a prefix,
fixes the count by a header word or marks a reserved Fmt; on a full accumulator it only sets the overflow
flag. -/
def Obligations.AppendRule : Prop :=
  ∀ cap w r,
    let f := w.toNat / 2 ^ 29
    let pay := if f = 2 ∨ f = 3 then (if w.toNat % 1024 = 0 then 1024 else w.toNat % 1024) else 0
    let total := (if f % 2 = 1 then 4 else 3) + pay + w.toNat / 2 ^ 15 % 2
    let stored : Receiver := { r with acc := r.acc.set r.n w, n := r.n + 1 }
    (cap ≤ r.n → append cap w r = { r with ovf := true }) ∧
      (r.n < cap → r.exp ≠ .unknown → append cap w r = stored) ∧
      (r.n < cap → r.exp = .unknown → f = 4 → append cap w r = { stored with pfx := r.pfx + 1 }) ∧
      (r.n < cap → r.exp = .unknown → f < 4 → append cap w r = { stored with exp := .known (r.pfx + total) }) ∧
      (r.n < cap → r.exp = .unknown → 4 < f → append cap w r = { stored with exp := .invalid })

/-- R170, R171, R345, R349: a TLP that has ended gives one outcome, the first reason in the order Overflow,
InvalidHeader, NoHeader, LengthMismatch, else Complete with exactly the accumulated words; the accumulator is
reset and the next state is the next slot's. A Corrupt goes to the diagnostic port too. -/
def Obligations.StepCompleteRule : Prop :=
  ∀ (s : State) b, hasHalted s = false → cursorOk s.rx = true → s.ctl = .rx b → s.rx.st = .tlpComplete →
    let d := s.rx.acc.take s.rx.n
    let rx' : Receiver := { s.rx with
      st := if s.rx.sf.toNat % 4 = 0 then RxState.inData else RxState.inRemainder
      n := 0, pfx := 0, exp := .unknown, ovf := false, retries := 0 }
    let corrupt (r : CorruptReason) : State := { s with
      rx := rx', ctl := .idle, replies := s.replies ++ [.corrupt r d], diag := s.diag ++ [(r, d)] }
    (s.rx.ovf = true → step s = .next (corrupt .overflow)) ∧
      (s.rx.ovf = false → s.rx.exp = .invalid → step s = .next (corrupt .invalidHeader)) ∧
      (s.rx.ovf = false → s.rx.exp = .unknown → step s = .next (corrupt .noHeader)) ∧
      (∀ k, s.rx.ovf = false → s.rx.exp = .known k → k ≠ s.rx.n → step s = .next (corrupt .lengthMismatch)) ∧
      (s.rx.ovf = false → s.rx.exp = .known s.rx.n → step s = .next { s with
        rx := rx', ctl := .idle, replies := s.replies ++ [.complete d] })

/-- R174, R162, R171: a word without the marker where a status word is expected, and not the filler, is consumed
and reported, be it buffered or just read; the accumulator is reset; `S.sf`, `S.slot` and the rest of the buffer
stay, so that a buffer just read still holds all its words. That inside `rx.next` (R152) the OutOfSync is returned and the next RX_DECODE follows is read from the
expansion (DEDUCED, log entry 17). -/
def Obligations.OutOfSyncRule : Prop :=
  ∀ (s : State) b, hasHalted s = false → cursorOk s.rx = true → s.ctl = .rx b → s.rx.st = .awaitingStatus →
    let illegal (q : Word) : Prop :=
      frameValue s.cfg.frameOrder q ≠ 0x55556666 ∧ (frameValue s.cfg.frameOrder q).toNat / 2 ^ 28 ≠ 0xE
    (s.rx.rd ≠ s.rx.lim → illegal (bufWord s.rx s.rx.rd) →
      step s = .next { s with
        rx := { s.rx with
          rd := s.rx.rd + 1, n := 0, pfx := 0, exp := .unknown, ovf := false, retries := 0 }
        ctl := if b then .rx true else .idle
        replies := s.replies ++ [.outOfSync] }) ∧
      ∀ bs rest, s.rx.rd = s.rx.lim → s.rxFeed = .bytes bs :: rest → 4 ≤ bs.length →
        illegal (be32 (bs.getD 0 0) (bs.getD 1 0) (bs.getD 2 0) (bs.getD 3 0)) →
        let rx' : Receiver := { s.rx with
          rxbuf := Memory.store s.rx.rxbuf 0 (bs.take 1040), rd := 1, lim := min bs.length 1040 / 4
          n := 0, pfx := 0, exp := .unknown, ovf := false, retries := 0 }
        step s = .next { s with
            rx := rx', rxFeed := rest, trace := s.trace ++ [.didRead (.bytes (bs.take 1040))]
            ctl := if b then .rx true else .idle
            replies := s.replies ++ [.outOfSync] } ∧
          ∀ i, i < rx'.lim →
            bufWord rx' i =
              be32 (bs.getD (4 * i) 0) (bs.getD (4 * i + 1) 0) (bs.getD (4 * i + 2) 0) (bs.getD (4 * i + 3) 0)

/-- R172, R161, R359: an empty read or a TErr in AwaitingStatus ends RX_DECODE with NoData, and under
`STATE_OR_IDLE` also one inside a group while no word is held; only the cursor changes. -/
def Obligations.NoDataRule : Prop :=
  ∀ (s : State) b a rest, hasHalted s = false → cursorOk s.rx = true → s.ctl = .rx b → s.rx.rd = s.rx.lim →
    s.rxFeed = a :: rest → isShort a = true →
    s.rx.st = .awaitingStatus ∨
      (s.cfg.noDataPolicy = .stateOrIdle ∧ s.rx.n = 0 ∧ s.rx.ovf = false ∧ s.rx.slot ≠ 7 ∧
        (s.rx.st = .inData ∨ s.rx.st = .inRemainder)) →
    step s = .next { s with
      rx := { s.rx with rd := 0, lim := 0 }, rxFeed := rest, trace := s.trace ++ [.didRead a]
      replies := s.replies ++ [.noData], ctl := .idle }

/-- R173, R38, R359: an empty read inside a group that does not report NoData counts one retry and the transport
is read again; the retry that exceeds a finite `MAX_EMPTY_RETRIES` ends with Corrupt(RetryExhausted) and the
words held. -/
def Obligations.RetryRule : Prop :=
  ∀ (s : State) b a rest, hasHalted s = false → cursorOk s.rx = true → s.ctl = .rx b → s.rx.rd = s.rx.lim →
    s.rxFeed = a :: rest → isShort a = true → s.rx.st = .inData ∨ s.rx.st = .inRemainder → s.rx.slot ≠ 7 →
    s.cfg.noDataPolicy = .state ∨ s.rx.n ≠ 0 ∨ s.rx.ovf = true →
    let t : State := { s with rxFeed := rest, trace := s.trace ++ [.didRead a] }
    let d := s.rx.acc.take s.rx.n
    (s.cfg.maxEmptyRetries = none ∨ (∃ m, s.cfg.maxEmptyRetries = some m ∧ s.rx.retries + 1 ≤ m) →
        step s = step { t with rx := { s.rx with rd := 0, lim := 0, retries := s.rx.retries + 1 } }) ∧
      ∀ m, s.cfg.maxEmptyRetries = some m → m < s.rx.retries + 1 →
        step s = .next { t with
          rx := { s.rx with
            rd := 0, lim := 0, st := .awaitingStatus
            n := 0, pfx := 0, exp := .unknown, ovf := false, retries := 0 }
          replies := s.replies ++ [.corrupt .retryExhausted d], diag := s.diag ++ [(.retryExhausted, d)]
          ctl := .idle }

/-- R161, R80, R37, R74: a read of at least 4 bytes fills the buffer with its whole words, at most 260, drops the
bytes beyond them, clears the retries and gives its first word; a word already buffered is given without a
read. -/
def Obligations.FetchWordRule : Prop :=
  ∀ s : State,
    (s.rx.rd ≠ s.rx.lim →
      fetchWord s = .word (bufWord s.rx s.rx.rd) { s with rx := { s.rx with rd := s.rx.rd + 1 } }) ∧
    ∀ bs rest, s.rx.rd = s.rx.lim → s.rxFeed = .bytes bs :: rest → 4 ≤ bs.length →
      ∃ t, fetchWord s = .word (be32 (bs.getD 0 0) (bs.getD 1 0) (bs.getD 2 0) (bs.getD 3 0)) t ∧
        t = { s with rx := t.rx, rxFeed := rest, trace := s.trace ++ [.didRead (.bytes (bs.take 1040))] } ∧
        t.rx = { s.rx with rxbuf := t.rx.rxbuf, rd := 1, lim := min bs.length 1040 / 4, retries := 0 } ∧
        ∀ i, i < t.rx.lim →
          bufWord t.rx i =
            be32 (bs.getD (4 * i) 0) (bs.getD (4 * i + 1) 0) (bs.getD (4 * i + 2) 0) (bs.getD (4 * i + 3) 0)

/-- R160, R175, R340, R348: RX_DECODE ends with exactly one outcome, or waits for a transport read that has not
returned (log entry 1), having returned none; it reads the transport in order and leaves everything outside the
receiver and its ports alone. -/
def Obligations.RxDecodeOutcome : Prop :=
  ∀ s : State, s.Inv → s.ctl = .idle → ∃ t k, exec .rxDecode s = .next t ∧
    t = { s with
      rx := t.rx, ctl := t.ctl, replies := t.replies, diag := t.diag
      rxFeed := s.rxFeed.drop k, trace := s.trace ++ (s.rxFeed.take k).map fun a => .didRead (clipAnswer a) } ∧
    ((t.ctl = .idle ∧
        ((t.replies = s.replies ++ [.noData] ∧ t.diag = s.diag) ∨
          (t.replies = s.replies ++ [.outOfSync] ∧ t.diag = s.diag) ∨
          (∃ d, t.replies = s.replies ++ [.complete d] ∧ t.diag = s.diag) ∨
          ∃ r d, t.replies = s.replies ++ [.corrupt r d] ∧ t.diag = s.diag ++ [(r, d)])) ∨
      (t.ctl = .rx false ∧ t.replies = s.replies ∧ t.diag = s.diag ∧ t.rxFeed = [] ∧ t.rx.rd = t.rx.lim))

/-- R152, R160, R340: `rx.next` runs RX_DECODE until the outcome is not OutOfSync: it ends with NoData, Complete or
Corrupt, having read the transport in order and left everything outside the receiver and its ports alone; a
Corrupt goes to the diagnostic port too (R349). That each OutOfSync before it is returned is DEDUCED (log entry
17), and that it may wait for a read that has not returned is log entry 1. -/
def Obligations.RxNextOutcome : Prop :=
  ∀ s : State, s.Inv → s.ctl = .idle → ∃ t k n, exec .rxNext s = .next t ∧
    t = { s with
      rx := t.rx, ctl := t.ctl, replies := t.replies, diag := t.diag
      rxFeed := s.rxFeed.drop k, trace := s.trace ++ (s.rxFeed.take k).map fun a => .didRead (clipAnswer a) } ∧
    let before := s.replies ++ List.replicate n .outOfSync
    ((t.ctl = .idle ∧
        ((t.replies = before ++ [.noData] ∧ t.diag = s.diag) ∨
          (∃ d, t.replies = before ++ [.complete d] ∧ t.diag = s.diag) ∨
          ∃ r d, t.replies = before ++ [.corrupt r d] ∧ t.diag = s.diag ++ [(r, d)])) ∨
      (t.ctl = .rx true ∧ t.replies = before ∧ t.diag = s.diag ∧ t.rxFeed = [] ∧ t.rx.rd = t.rx.lim))

/-- R176, R103-R106, R164-R171, R80: a stream of well-formed groups, with filler words before any status word,
NON_TLP slots anywhere and groups split across reads at any word, delivers each TLP of at most `ACC_CAP` words
with its declared total and a TLP_LAST last word. First, one RX_DECODE from any place between two TLPs (before a
status word, or before the slots `first` of a group) gives one Complete with exactly the TLP-class words in order,
reads what it needs and no more, and stands before the slots `post` left in the group, `extra` still buffered.
Second, as many RX_DECODEs as the stream has TLP_LAST slots give exactly its TLPs, in order. -/
def Obligations.RxDecodeDeliversTlp : Prop :=
  (∀ (s : State) first gs pre c w post (chunks : List (List Byte)) rest extra i hw pay d, s.Inv → s.ctl = .idle →
    standsBefore s.rx first → s.rx.n = 0 → (∀ g ∈ gs, g.2.length = 7) →
    first ++ gs.flatMap (·.2) = pre ++ (c, w) :: post → (∀ x ∈ pre, isLast x.1 = false) → isLast c = true →
    gs = [] ∨ post.length < 7 →
    let ws := (pre.filter fun x => isTlp x.1).map (·.2) ++ [w]
    let all := first.map (·.2) ++ streamWords s.cfg.frameOrder gs
    let used := all.take (all.length - post.length)
    ws.length ≤ s.cfg.accCap → tlpLen ws = .len i hw pay d ws.length →
    (∀ b ∈ chunks, 4 ≤ b.length ∧ b.length ≤ 1040) →
    bufferedWords s.rx ++ chunks.flatMap wordsOf = used ++ extra →
    chunks = [] ∨ (bufferedWords s.rx ++ chunks.dropLast.flatMap wordsOf).length < used.length →
    s.rxFeed = chunks.map .bytes ++ rest →
    ∃ t, exec .rxDecode s = .next t ∧
      t = { s with
        rx := t.rx, rxFeed := rest, replies := s.replies ++ [.complete ws]
        trace := s.trace ++ chunks.map fun b => .didRead (.bytes b) } ∧
      t.rx.n = 0 ∧ t.rx.pfx = 0 ∧ t.rx.exp = .unknown ∧ t.rx.ovf = false ∧
      t.rx.st = (if nextIsTlp post then .inData else .inRemainder) ∧ standsBefore t.rx post ∧
      bufferedWords t.rx = extra) ∧
  ∀ (s : State) gs (chunks : List (List Byte)) rest extra, s.Inv → s.ctl = .idle → s.rx.st = .awaitingStatus →
    s.rx.n = 0 → (∀ g ∈ gs, g.2.length = 7) → (∀ b ∈ chunks, 4 ≤ b.length ∧ b.length ≤ 1040) →
    bufferedWords s.rx ++ chunks.flatMap wordsOf = streamWords s.cfg.frameOrder gs ++ extra →
    s.rxFeed = chunks.map .bytes ++ rest →
    let tlps := slotTlps [] (gs.flatMap (·.2))
    (∀ ws ∈ tlps, ws.length ≤ s.cfg.accCap ∧ ∃ i hw pay d, tlpLen ws = .len i hw pay d ws.length) →
    (decodeTimes tlps.length s).replies = s.replies ++ tlps.map .complete ∧
      (decodeTimes tlps.length s).diag = s.diag

/-! ### The codec -/

/-- R221, R119, R121: the length function, by the bits of the word. -/
def Obligations.HdrlenResult : Prop :=
  ∀ w (s : State),
    let f := w.toNat / 2 ^ 29
    let td := w.toNat / 2 ^ 15 % 2
    let pay := if f = 2 ∨ f = 3 then (if w.toNat % 1024 = 0 then 1024 else w.toNat % 1024) else 0
    let r : HdrLen := if f = 4 then .prefixWord
      else if 4 < f then .invalid
      else if f = 0 ∨ f = 2 then .header .dw3 pay td (3 + pay + td)
      else .header .dw4 pay td (4 + pay + td)
    exec (.tlpHdrlen w) s = .next { s with replies := s.replies ++ [.hdrLen r], ctl := .idle }

/-- R231-R236 and R111: the value of each Fmt row for the codec, with no receive operation in progress. -/
def Obligations.FmtRowsResult : Prop :=
  ∀ (rest : BitVec 29) (s : State), inRx s.ctl = false →
    let td := rest.toNat / 2 ^ 15 % 2
    let len := if rest.toNat % 1024 = 0 then 1024 else rest.toNat % 1024
    let gives (r : HdrLen) : Host.Outcome State Fault Refusal :=
      .next { s with replies := s.replies ++ [.hdrLen r], ctl := .idle }
    exec (.fmt3dwNodata rest) s = gives (.header .dw3 0 td (3 + td)) ∧
      exec (.fmt4dwNodata rest) s = gives (.header .dw4 0 td (4 + td)) ∧
      exec (.fmt3dwData rest) s = gives (.header .dw3 len td (3 + len + td)) ∧
      exec (.fmt4dwData rest) s = gives (.header .dw4 len td (4 + len + td)) ∧
      exec (.fmtPrefix rest) s = gives .prefixWord ∧ exec (.fmtRsvd101 rest) s = gives .invalid ∧
      exec (.fmtRsvd110 rest) s = gives .invalid ∧ exec (.fmtRsvd111 rest) s = gives .invalid

/-- R169, R235, R236, R231-R234: a leader word dispatched inside RX_DECODE fixes the expected count while it is
unknown, by its Fmt (log entry 10), and changes nothing else. -/
def Obligations.FmtRowsInReceiver : Prop :=
  ∀ (rest : BitVec 29) (s : State) b, s.ctl = .rx b →
    let td := rest.toNat / 2 ^ 15 % 2
    let len := if rest.toNat % 1024 = 0 then 1024 else rest.toNat % 1024
    let expects (e : Expected) : Host.Outcome State Fault Refusal := .next { s with rx := { s.rx with exp := e } }
    (s.rx.exp = .unknown →
      exec (.fmt3dwNodata rest) s = expects (.known (s.rx.pfx + (3 + td))) ∧
      exec (.fmt4dwNodata rest) s = expects (.known (s.rx.pfx + (4 + td))) ∧
      exec (.fmt3dwData rest) s = expects (.known (s.rx.pfx + (3 + len + td))) ∧
      exec (.fmt4dwData rest) s = expects (.known (s.rx.pfx + (4 + len + td))) ∧
      exec (.fmtPrefix rest) s = .next { s with rx := { s.rx with pfx := s.rx.pfx + 1 } } ∧
      exec (.fmtRsvd101 rest) s = expects .invalid ∧ exec (.fmtRsvd110 rest) s = expects .invalid ∧
      exec (.fmtRsvd111 rest) s = expects .invalid) ∧
    (s.rx.exp ≠ .unknown →
      exec (.fmt3dwNodata rest) s = .next s ∧ exec (.fmt4dwNodata rest) s = .next s ∧
      exec (.fmt3dwData rest) s = .next s ∧ exec (.fmt4dwData rest) s = .next s ∧
      exec (.fmtPrefix rest) s = .next s ∧ exec (.fmtRsvd101 rest) s = .next s ∧
      exec (.fmtRsvd110 rest) s = .next s ∧ exec (.fmtRsvd111 rest) s = .next s)

/-- R240-R246 with R231-R235: every type row is handled by its Fmt, TD and Length alone, and selects the field
view of its group (log entry 10), with no receive operation in progress. -/
def Obligations.TypeRowsResult : Prop :=
  ∀ s : State, inRx s.ctl = false →
    let gives (v : View) (r : HdrLen) : Host.Outcome State Fault Refusal :=
      .next { s with replies := s.replies ++ [.tlpView r v], ctl := .idle }
    (∀ rest : BitVec 24,
      let td := rest.toNat / 2 ^ 15 % 2
      let len := if rest.toNat % 1024 = 0 then 1024 else rest.toNat % 1024
      let nodata3 := HdrLen.header .dw3 0 td (3 + td)
      let nodata4 := HdrLen.header .dw4 0 td (4 + td)
      let data3 := HdrLen.header .dw3 len td (3 + len + td)
      let data4 := HdrLen.header .dw4 len td (4 + len + td)
      (exec (.mrd32 rest) s = gives .memReq nodata3 ∧ exec (.mrd64 rest) s = gives .memReq nodata4 ∧
        exec (.mrdLk32 rest) s = gives .memReq nodata3 ∧ exec (.mrdLk64 rest) s = gives .memReq nodata4 ∧
        exec (.mwr32 rest) s = gives .memReq data3 ∧ exec (.mwr64 rest) s = gives .memReq data4) ∧
      (exec (.iord rest) s = gives .ioReq nodata3 ∧ exec (.iowr rest) s = gives .ioReq data3) ∧
      (exec (.cfgRd0 rest) s = gives .cfgReq nodata3 ∧ exec (.cfgWr0 rest) s = gives .cfgReq data3 ∧
        exec (.cfgRd1 rest) s = gives .cfgReq nodata3 ∧ exec (.cfgWr1 rest) s = gives .cfgReq data3) ∧
      (exec (.cpl rest) s = gives .completion nodata3 ∧ exec (.cplD rest) s = gives .completion data3 ∧
        exec (.cplLk rest) s = gives .completion nodata3 ∧ exec (.cplDLk rest) s = gives .completion data3) ∧
      (exec (.fetchAdd32 rest) s = gives .atomicReq data3 ∧ exec (.fetchAdd64 rest) s = gives .atomicReq data4 ∧
        exec (.swap32 rest) s = gives .atomicReq data3 ∧ exec (.swap64 rest) s = gives .atomicReq data4 ∧
        exec (.cas32 rest) s = gives .atomicReq data3 ∧ exec (.cas64 rest) s = gives .atomicReq data4)) ∧
    (∀ rest : BitVec 27,
      let td := rest.toNat / 2 ^ 15 % 2
      let len := if rest.toNat % 1024 = 0 then 1024 else rest.toNat % 1024
      exec (.msg rest) s = gives .message (.header .dw4 0 td (4 + td)) ∧
        exec (.msgD rest) s = gives .message (.header .dw4 len td (4 + len + td))) ∧
    ∀ rest : BitVec 28,
      exec (.lprfx rest) s = gives .prefixView .prefixWord ∧ exec (.eprfx rest) s = gives .prefixView .prefixWord

/-- R240-R246 with R169: inside RX_DECODE a type row is handled by its Fmt alone: it does what the row of its Fmt
does with the same word (log entry 10). -/
def Obligations.TypeRowsInReceiver : Prop :=
  ∀ (s : State) b, s.ctl = .rx b →
    (∀ rest : BitVec 24,
      (exec (.mrd32 rest) s = exec (.fmt3dwNodata (0b00000#5 ++ rest)) s ∧
        exec (.mrd64 rest) s = exec (.fmt4dwNodata (0b00000#5 ++ rest)) s ∧
        exec (.mrdLk32 rest) s = exec (.fmt3dwNodata (0b00001#5 ++ rest)) s ∧
        exec (.mrdLk64 rest) s = exec (.fmt4dwNodata (0b00001#5 ++ rest)) s ∧
        exec (.mwr32 rest) s = exec (.fmt3dwData (0b00000#5 ++ rest)) s ∧
        exec (.mwr64 rest) s = exec (.fmt4dwData (0b00000#5 ++ rest)) s) ∧
      (exec (.iord rest) s = exec (.fmt3dwNodata (0b00010#5 ++ rest)) s ∧
        exec (.iowr rest) s = exec (.fmt3dwData (0b00010#5 ++ rest)) s) ∧
      (exec (.cfgRd0 rest) s = exec (.fmt3dwNodata (0b00100#5 ++ rest)) s ∧
        exec (.cfgWr0 rest) s = exec (.fmt3dwData (0b00100#5 ++ rest)) s ∧
        exec (.cfgRd1 rest) s = exec (.fmt3dwNodata (0b00101#5 ++ rest)) s ∧
        exec (.cfgWr1 rest) s = exec (.fmt3dwData (0b00101#5 ++ rest)) s) ∧
      (exec (.cpl rest) s = exec (.fmt3dwNodata (0b01010#5 ++ rest)) s ∧
        exec (.cplD rest) s = exec (.fmt3dwData (0b01010#5 ++ rest)) s ∧
        exec (.cplLk rest) s = exec (.fmt3dwNodata (0b01011#5 ++ rest)) s ∧
        exec (.cplDLk rest) s = exec (.fmt3dwData (0b01011#5 ++ rest)) s) ∧
      (exec (.fetchAdd32 rest) s = exec (.fmt3dwData (0b01100#5 ++ rest)) s ∧
        exec (.fetchAdd64 rest) s = exec (.fmt4dwData (0b01100#5 ++ rest)) s ∧
        exec (.swap32 rest) s = exec (.fmt3dwData (0b01101#5 ++ rest)) s ∧
        exec (.swap64 rest) s = exec (.fmt4dwData (0b01101#5 ++ rest)) s ∧
        exec (.cas32 rest) s = exec (.fmt3dwData (0b01110#5 ++ rest)) s ∧
        exec (.cas64 rest) s = exec (.fmt4dwData (0b01110#5 ++ rest)) s)) ∧
    (∀ rest : BitVec 27,
      exec (.msg rest) s = exec (.fmt4dwNodata (0b10#2 ++ rest)) s ∧
        exec (.msgD rest) s = exec (.fmt4dwData (0b10#2 ++ rest)) s) ∧
    ∀ rest : BitVec 28,
      exec (.lprfx rest) s = exec (.fmtPrefix (0b0#1 ++ rest)) s ∧
        exec (.eprfx rest) s = exec (.fmtPrefix (0b1#1 ++ rest)) s

/-- R229: N prefix words before a header word add N to its index and to its total. -/
def Obligations.PrefixLaw : Prop :=
  ∀ (pre : List Word) (w : Word) (rest : List Word) hw pay d t,
    (∀ p ∈ pre, p.toNat / 2 ^ 29 = 4) → hdrLen w = .header hw pay d t →
    (∀ p ∈ pre, hdrLen p = .prefixWord) ∧ tlpLen (pre ++ w :: rest) = .len pre.length hw pay d (pre.length + t)

/-- R223, R222, R346: TLP_DECODE by the first non-prefix word: a reserved Fmt is InvalidFormat; a header needs its
declared total, or under `HEADER` the prefixes and the header only, and gives the header words, the index of the
payload and its length; a list that ends first is Truncated. -/
def Obligations.TlpDecodeResult : Prop :=
  ∀ (pre : List Word) (s : State), (∀ p ∈ pre, p.toNat / 2 ^ 29 = 4) →
    let gives (r : Except CodecStatus Decoded) : Host.Outcome State Fault Refusal :=
      .next { s with replies := s.replies ++ [.decoded r], ctl := .idle }
    exec (.tlpDecode pre) s = gives (.error .truncated) ∧
    (∀ w rest, 4 < w.toNat / 2 ^ 29 →
      exec (.tlpDecode (pre ++ w :: rest)) s = gives (.error .invalidFormat)) ∧
    ∀ w rest hw pay d t, hdrLen w = .header hw pay d t →
      let avail := 1 + rest.length
      let need := match s.cfg.decodeCheck with
        | .total => t
        | .header => hdrCount hw
      exec (.tlpDecode (pre ++ w :: rest)) s =
        if avail < need then gives (.error .truncated)
        else gives (.ok {
          h := {
            w0 := w, w1 := rest.getD 0 0, w2 := rest.getD 1 0
            w3 := if hw = .dw4 then rest.getD 2 0 else 0, hw := hw }
          pfx := pre.length, poff := pre.length + hdrCount hw, plen := pay })

/-- R224, R346: TLP_ENCODE takes the header word count from the header's first word, refuses a prefix or reserved
Fmt before a short buffer, and writes the header's bytes in wire order and no other byte. -/
def Obligations.TlpEncodeResult : Prop :=
  ∀ h cap (s : State),
    let f := h.w0.toNat / 2 ^ 29
    let bytes := if f = 0 ∨ f = 2 then 12 else 16
    ∃ t, exec (.tlpEncode h cap) s = .next t ∧
      t = { s with
        hostMem := t.hostMem, ctl := .idle
        replies := s.replies ++ [.encoded (if 4 ≤ f then .error .invalidFormat
          else if cap < bytes then .error .bufferTooSmall else .ok bytes)] } ∧
      ∀ a, hostByte t a =
        if f < 4 ∧ bytes ≤ cap ∧ a < bytes then
          BitVec.ofNat 8 (([h.w0, h.w1, h.w2, h.w3].getD (a / 4) 0).toNat / 2 ^ (24 - 8 * (a % 4)))
        else hostByte s a

/-- R228: a header encoded and then decoded with its payload comes back field for field, and the payload words
are untouched. -/
def Obligations.CodecRoundTrip : Prop :=
  ∀ (h : Header) (p : List Word) (s : State) pay d t, hdrLen h.w0 = .header h.hw pay d t → (h.hw = .dw3 → h.w3 = 0) →
    p.length = pay + d →
    ∃ s1, exec (.tlpEncode h (4 * hdrCount h.hw)) s = .next s1 ∧
      s1.replies = s.replies ++ [.encoded (.ok (4 * hdrCount h.hw))] ∧
      let ws := wordsOf ((List.range (4 * hdrCount h.hw)).map (hostByte s1)) ++ p
      ws.drop (hdrCount h.hw) = p ∧
        exec (.tlpDecode ws) s1 = .next { s1 with
          replies := s1.replies ++
            [.decoded (.ok { h := h, pfx := 0, poff := hdrCount h.hw, plen := pay })] }

/-- R225, R128: TLP_SEND puts the whole TLP on the transmit stream in one TransportWrite, each word as its four
bytes, two zero bytes, 0x04 for the last word and else 0x00, and 0x77; a TErr ends it with TransportError. It
completes in every state, whatever the write answers (`nextWrite`, the environment's draw, free where none is
listed: log entry 9, as are the bytes that go out before a TErr). Under another framing the bytes are that
framing's, a free value (log entry 3). -/
def Obligations.TlpSendResult : Prop :=
  ∀ (h : Header) (tail : List Word) (s : State) hw pay d t, hdrLen h.w0 = .header hw pay d t →
    hdrCount hw + tail.length = t →
    let ws := (if hw = .dw4 then [h.w0, h.w1, h.w2, h.w3] else [h.w0, h.w1, h.w2]) ++ tail
    let frame := match s.cfg.txFraming with
      | .rec877 => (List.range t).flatMap fun j =>
          bytesBe (ws.getD j 0) ++ [0x00, 0x00, if j + 1 = t then 0x04 else 0x00, 0x77]
      | .other k => Config.otherFraming k ws
    (nextWrite s = .ok → exec (.tlpSend h tail) s = .next { tookWrite s with
        ctl := .idle, txFrame := [], trace := s.trace ++ [.wrote frame]
        replies := s.replies ++ [.sent .ok] }) ∧
      ∀ k, nextWrite s = .tErr k → exec (.tlpSend h tail) s = .next { tookWrite s with
        ctl := .idle, txFrame := [], trace := s.trace ++ [.writeFailed (frame.take k)]
        replies := s.replies ++ [.sent .transportError] }

/-- R225, R346, R235, R236: TLP_SEND of a prefix or reserved Fmt is InvalidFormat, and then of a tail that does
not make up the declared total LengthMismatch; nothing is sent. -/
def Obligations.TlpSendRefused : Prop :=
  ∀ (h : Header) (tail : List Word) (s : State),
    (4 ≤ h.w0.toNat / 2 ^ 29 → exec (.tlpSend h tail) s = .next { s with
      replies := s.replies ++ [.sent .invalidFormat], ctl := .idle }) ∧
    ∀ hw pay d t, hdrLen h.w0 = .header hw pay d t → hdrCount hw + tail.length ≠ t →
      exec (.tlpSend h tail) s = .next { s with
        replies := s.replies ++ [.sent .lengthMismatch], ctl := .idle }

/-- R226, R120: the register offset is bits 11..2 of header word 2 in place, whatever the type of the TLP. -/
def Obligations.CfgRegoffResult : Prop :=
  ∀ h (s : State), exec (.cfgRegoff h) s = .next { s with
      replies := s.replies ++ [.regOff (BitVec.ofNat 12 (h.w2.toNat % 4096 / 4 * 4))], ctl := .idle } ∧
    (regOff h.w2).toNat % 4 = 0

/-- R227: writing a field into a header replaces exactly its bits: the field reads as written, and every field
with no bit in common reads as before; the header word count stays. And R110, R113-R118: the fields of word 0,
the fields of each view and the completion status, each read from the bits where the table puts it (positions
from general knowledge in the spec: log entry 12). -/
def Obligations.FieldLaws : Prop :=
  (∀ (f g : Field) (h : Header) (v : Nat), f.word < 4 → f.lo + f.width ≤ 32 → g.lo + g.width ≤ 32 →
    Field.get f (Field.set f h v) = v % 2 ^ f.width ∧ (Field.set f h v).hw = h.hw ∧
      (f.word ≠ g.word ∨ f.lo + f.width ≤ g.lo ∨ g.lo + g.width ≤ f.lo →
        Field.get g (Field.set f h v) = Field.get g h)) ∧
  ∀ h : Header,
    let b0 (hi lo : Nat) : Nat := (h.w0.extractLsb hi lo).toNat
    let b1 (hi lo : Nat) : Nat := (h.w1.extractLsb hi lo).toNat
    let b2 (hi lo : Nat) : Nat := (h.w2.extractLsb hi lo).toNat
    let b3 (hi lo : Nat) : Nat := (h.w3.extractLsb hi lo).toNat
    let reads (fs : List Field) : List Nat := fs.map fun f => Field.get f h
    let req := [b1 31 16, b1 15 8, b1 7 4, b1 3 0]
    reads leaderFields = [b0 31 29, b0 28 24, b0 23 23, b0 22 20, b0 19 19, b0 18 18, b0 17 17, b0 16 16, b0 15 15,
        b0 14 14, b0 13 12, b0 11 10, b0 9 0] ∧
      reads (viewFields .memReq .dw3) = req ++ [b2 31 2] ∧
      reads (viewFields .memReq .dw4) = req ++ [b2 31 0, b3 31 2] ∧
      reads (viewFields .atomicReq .dw3) = req ++ [b2 31 2] ∧
      reads (viewFields .atomicReq .dw4) = req ++ [b2 31 0, b3 31 2] ∧
      (∀ hw, reads (viewFields .ioReq hw) = req ++ [b2 31 2] ∧
        reads (viewFields .cfgReq hw) = req ++ [b2 31 24, b2 23 19, b2 18 16, b2 11 8, b2 7 2] ∧
        reads (viewFields .message hw) = [b1 31 16, b1 15 8, b1 7 0] ∧
        reads (viewFields .completion hw) =
          [b1 31 16, b1 15 13, b1 12 12, b1 11 0, b2 31 16, b2 15 8, b2 6 0] ∧
        reads (viewFields .prefixView hw) = [b0 28 28, b0 27 24]) ∧
      cplStatusName (b1 15 13) =
        if b1 15 13 = 0b000 then .sc else if b1 15 13 = 0b001 then .ur else if b1 15 13 = 0b010 then .crs
        else if b1 15 13 = 0b100 then .ca else .reserved

/-! ### Register access -/

/-- R281, R280, R347: the argument checks of REG_READ and REG_WRITE in their order; nothing is sent and nothing
but the outcome changes. -/
def Obligations.RegOperandChecks : Prop :=
  ∀ addr cnt (region : Half) ch (data : List Byte) (s : State), s.ctl = .idle → s.txn = Txn.none → data.length = cnt →
    let legal := (region = 0x0000 ∨ region = 0x8000 ∨ region = 0xC000) ∧ (ch = 1 ∨ ch = 2 ∨ ch = 3)
    let ends (r : RegStatus) : Prop :=
      exec (.regRead addr cnt region ch) s = .next { s with replies := s.replies ++ [.regRead r []] } ∧
        exec (.regWrite addr data region ch) s = .next { s with replies := s.replies ++ [.regWrite r] }
    (¬ legal → ends .badOperand) ∧ (legal → 4096 < addr + cnt → ends .rangeError) ∧
      (legal → addr + cnt ≤ 4096 → cnt = 0 → ends .ok)

/-- R282, R125, R126: the eight bytes of a read record and of a write record, in wire order. -/
def Obligations.RecordBytes : Prop :=
  ∀ (region : Half) ch a addr (data : List Byte), regionLegal region = true → channelLegal ch = true → a < 4096 →
    let hi : Byte := BitVec.ofNat 8 ((region.toNat + a) / 256)
    let lo : Byte := BitVec.ofNat 8 (a % 256)
    let byte (x : Nat) : Byte := if addr ≤ x ∧ x < addr + data.length then data.getD (x - addr) 0 else 0x00
    let enable (x : Nat) : Byte := if addr ≤ x ∧ x < addr + data.length then 0xFF else 0x00
    recBytes (readRec region ch a) = [0x00, 0x00, 0x00, 0x00, hi, lo, BitVec.ofNat 8 (0x10 + ch), 0x77] ∧
      recBytes (writeRec addr data region ch a) =
        [byte a, byte (a + 1), enable a, enable (a + 1), hi, lo, BitVec.ofNat 8 (0x20 + ch), 0x77]

/-- R283, R81: the pairs are exactly the even addresses from `addr & ~1` below `addr + cnt`, rising, in the number
the rule gives. -/
def Obligations.PairsRule : Prop :=
  ∀ addr cnt, (∀ a, a ∈ pairs addr cnt ↔ a % 2 = 0 ∧ addr - addr % 2 ≤ a ∧ a < addr + cnt) ∧
    (pairs addr cnt).Pairwise (· < ·) ∧
    (pairs addr cnt).length = (addr + cnt - (addr - addr % 2) + 1) / 2 ∧
    (addr + cnt ≤ 4096 → ∀ a ∈ pairs addr cnt, a ≤ 4094)

/-- R126, R52, R282: every record that a checked call builds is one the block may emit; the checks build none for a
count of 0 (R281). -/
def Obligations.RecordsAreLegal : Prop :=
  ∀ t : Txn, regionLegal t.region = true → channelLegal t.ch = true → 0 < t.cnt → t.addr + t.cnt ≤ 4096 →
    (t.isWrite = true → t.data.length = t.cnt) → ∀ r ∈ txnRecs t, recLegal r = true

/-- R287: where a response's two bytes go: to the offset of its masked address and the one after, each if it lies
in the range; and the second byte of the pair before an odd start to the first output byte, the sentinel. -/
def Obligations.PlaceRule : Prop :=
  ∀ (a : Half) (dA dA1 : Byte) (t : Txn), t.addr + t.cnt ≤ 4096 → t.out.length = t.cnt → t.got.length = t.cnt →
    let m := a.toNat % 4096
    let u := place a dA dA1 t
    (∀ k, k < t.cnt →
      (m = t.addr + k → u.out.getD k 0 = dA ∧ u.got.getD k false = true) ∧
      (m + 1 = t.addr + k → u.out.getD k 0 = dA1 ∧ u.got.getD k false = true) ∧
      (m ≠ t.addr + k → m + 1 ≠ t.addr + k →
        u.out.getD k 0 = t.out.getD k 0 ∧ u.got.getD k false = t.got.getD k false)) ∧
    u = { t with out := u.out, got := u.got } ∧ u.out.length = t.cnt ∧ u.got.length = t.cnt

/-- R285, R286: the scanner steps over a filler word alone and over any other word without the marker with the 7
after it; of a group it takes, in order, the words whose class nibble equals the channel. -/
def Obligations.ScanRule : Prop :=
  ∀ (o : FrameOrder) ch, scanWords o ch 0 [] = [] ∧ ∀ (q : Word) (rest : List Word),
    let v := frameValue o q
    (v = 0x55556666 → scanWords o ch 0 (q :: rest) = scanWords o ch 0 rest) ∧
      (v ≠ 0x55556666 → v.toNat / 2 ^ 28 ≠ 0xE → scanWords o ch 0 (q :: rest) = scanWords o ch 0 (rest.drop 7)) ∧
      (v.toNat / 2 ^ 28 = 0xE → scanWords o ch 0 (q :: rest) =
        ((List.range (min 7 rest.length)).filter fun j => decide (v.toNat / 16 ^ j % 16 = ch)).map
            (fun j => rest.getD j 0) ++ scanWords o ch 0 (rest.drop 7))

/-- R287, R127, R284, R291, R296, R359: the units of a register transaction. A response word is placed and is no
longer pending. A record that fits is put at the end of the batch; one that does not fit is put first in a new
batch once the old one is written, and if that write fails the call ends with TransportError; the write's answer
is the environment's draw (`nextWrite`, log entry 9). That a record with a region or channel that R281 excludes,
which the block never emits (R126), ends the call with BadOperand and nothing sent is the model's choice (log
entry 20). -/
def Obligations.RegisterUnits : Prop :=
  ∀ s : State,
    (∀ a dA dA1, exec (.regresp a dA dA1) s = .next { s with
      txn := { place a dA dA1 s.txn with pend := s.txn.pend.tail } }) ∧
    ∀ region pair ch d0 d1 beLo beHi,
      let fa : Half := BitVec.ofNat 16 (region.toNat * 2 ^ 14 + 2 * pair.toNat)
      let ends (cmd : Nat) : List Byte := [fa.extractLsb' 8 8, fa.extractLsb' 0 8, BitVec.ofNat 8 (cmd + ch.toNat), 0x77]
      let rd : List Byte := [0, 0, 0, 0] ++ ends 0x10
      let wr : List Byte := [d0, d1, beLo, beHi] ++ ends 0x20
      (region = 0b01 ∨ ch = 0 →
        exec (.regRd region pair ch) s = .next { s with
            txn := { s.txn with phase := .done, result := .badOperand } } ∧
          exec (.regWr d0 d1 beLo beHi region pair ch) s = .next { s with
            txn := { s.txn with phase := .done, result := .badOperand } }) ∧
      (region ≠ 0b01 → ch ≠ 0 → s.txn.batch.length + 8 ≤ s.cfg.txBatchBytes →
        exec (.regRd region pair ch) s = .next { s with
            txn := { s.txn with batch := s.txn.batch ++ rd, put := s.txn.put + 1 } } ∧
          exec (.regWr d0 d1 beLo beHi region pair ch) s = .next { s with
            txn := { s.txn with batch := s.txn.batch ++ wr, put := s.txn.put + 1 } }) ∧
      (region ≠ 0b01 → ch ≠ 0 → s.cfg.txBatchBytes < s.txn.batch.length + 8 →
        (nextWrite s = .ok →
          exec (.regRd region pair ch) s = .next { tookWrite s with
              trace := s.trace ++ [.wrote s.txn.batch]
              txn := { s.txn with batch := rd, put := s.txn.put + 1 } } ∧
            exec (.regWr d0 d1 beLo beHi region pair ch) s = .next { tookWrite s with
              trace := s.trace ++ [.wrote s.txn.batch]
              txn := { s.txn with batch := wr, put := s.txn.put + 1 } }) ∧
        ∀ k, nextWrite s = .tErr k →
          let failed : State := { tookWrite s with
            trace := s.trace ++ [.writeFailed (s.txn.batch.take k)]
            txn := { s.txn with phase := .done, result := .transportError } }
          exec (.regRd region pair ch) s = .next failed ∧
            exec (.regWr d0 d1 beLo beHi region pair ch) s = .next failed)

/-- R128, R225: the transmit record of a TLP word joins the frame under construction: its four bytes, two zero
bytes, the byte that marks the last word, and 0x77; and that word is no longer due. -/
def Obligations.TransmitUnits : Prop :=
  ∀ (s : State) v rest w, s.ctl = .send (v :: rest) →
    exec (.txTlpWord w) s = .next { s with
        txFrame := s.txFrame ++ (bytesBe w ++ [0x00, 0x00, 0x00, 0x77]), ctl := .send rest } ∧
      exec (.txTlpLast w) s = .next { s with
        txFrame := s.txFrame ++ (bytesBe w ++ [0x00, 0x00, 0x04, 0x77]), ctl := .send rest }

/-- R290, R282-R289, R397, R347: a checked REG_READ writes its records in full batches of `TX_BATCH_BYTES` and a last
one, waits, reads the transport until the harvest ends, up to `HARVEST_READS` times, and returns Ok with every byte
matched, or Incomplete with the unmatched bytes 0. The receiver is left alone. `reg.read8` is the read of one byte
on `REG_CH` (R152). -/
def Obligations.RegReadResult : Prop :=
  ∀ addr cnt (region : Half) ch (s : State) (bss : List (List Byte)) rest, s.cfg.wf → regionLegal region = true →
    channelLegal ch = true → 0 < cnt → addr + cnt ≤ 4096 →
    let wire := readWire addr cnt region ch
    let batches := batchesOf s.cfg.txBatchBytes wire
    acceptsWrites batches.length s = true → s.rxFeed = bss.map .bytes ++ rest →
    harvestEnds s.cfg addr cnt ch bss →
    let u := harvested s.cfg.frameOrder addr cnt ch bss
    let t : State := { s with
      ctl := .idle, txn := Txn.none, rxFeed := rest, txFeed := s.txFeed.drop batches.length
      replies := s.replies ++ [.regRead (if allGot u then .ok else .incomplete) u.out]
      trace := s.trace ++ batches.map .wrote ++ harvestEvents bss }
    exec (.regRead addr cnt region ch) s = .next t ∧
      (cnt = 1 → ch = s.cfg.regCh → exec (.regRead8 addr region) s = .next t) ∧
      batches.flatten = wire ∧ ∀ b ∈ batches, b.length ≤ s.cfg.txBatchBytes

/-- R295, R282-R284: a checked REG_WRITE writes its records in full batches of `TX_BATCH_BYTES` and a last one, and
returns Ok; it neither waits nor reads the transport, and leaves the receiver alone. -/
def Obligations.RegWriteResult : Prop :=
  ∀ addr (data : List Byte) (region : Half) ch (s : State), s.cfg.wf → regionLegal region = true → channelLegal ch = true →
    data ≠ [] → addr + data.length ≤ 4096 →
    let wire := writeWire addr data region ch
    let batches := batchesOf s.cfg.txBatchBytes wire
    acceptsWrites batches.length s = true →
    exec (.regWrite addr data region ch) s = .next { s with
        ctl := .idle, txn := Txn.none, txFeed := s.txFeed.drop batches.length
        replies := s.replies ++ [.regWrite .ok], trace := s.trace ++ batches.map .wrote } ∧
      batches.flatten = wire ∧ ∀ b ∈ batches, b.length ≤ s.cfg.txBatchBytes

/-- R284, R290, R347, R359: a TErr on the write of any batch, the first or a later one, ends the call with
TransportError; the batches before it are written, the records not yet written are never sent, and the transport
is not read. A TErr on any read of the harvest, the first or a later one, ends it too, and the output bytes
matched by then keep their values (R290). `reg.read8` is the read of one byte on `REG_CH` in every form, its
BadOperand, RangeError and TransportError among them (R152, R281). Which bytes of the failed write went out is the environment's draw (log
entry 9); the output bytes no response matched are free (log entry 4). -/
def Obligations.RegTransportErrors : Prop :=
  (∀ a (region : Half) (s : State), exec (.regRead8 a region) s = exec (.regRead a 1 region s.cfg.regCh) s) ∧
  ∀ addr cnt (region : Half) ch (data : List Byte) (s : State), s.cfg.wf → regionLegal region = true →
    channelLegal ch = true → 0 < cnt → addr + cnt ≤ 4096 → data.length = cnt →
    let rds := batchesOf s.cfg.txBatchBytes (readWire addr cnt region ch)
    let wrs := batchesOf s.cfg.txBatchBytes (writeWire addr data region ch)
    (∀ n k rest, n < rds.length → s.txFeed = List.replicate n .ok ++ .tErr k :: rest →
      ∃ out : List Byte, out.length = cnt ∧
        exec (.regRead addr cnt region ch) s = .next { s with
          ctl := .idle, txn := Txn.none, txFeed := rest, draws := s.draws + 1
          trace := s.trace ++ (rds.take n).map .wrote ++ [.writeFailed ((rds.getD n []).take k)]
          replies := s.replies ++ [.regRead .transportError out] } ∧
        exec (.regWrite addr data region ch) s = .next { s with
          ctl := .idle, txn := Txn.none, txFeed := rest, draws := s.draws + 1
          trace := s.trace ++ (wrs.take n).map .wrote ++ [.writeFailed ((wrs.getD n []).take k)]
          replies := s.replies ++ [.regWrite .transportError] }) ∧
    ∀ (bss : List (List Byte)) rest, acceptsWrites rds.length s = true →
      s.rxFeed = bss.map .bytes ++ .tErr :: rest → bss.length < s.cfg.harvestReads →
      harvestOpen s.cfg.frameOrder addr cnt ch bss →
      let u := harvested s.cfg.frameOrder addr cnt ch bss
      ∃ out : List Byte, out.length = cnt ∧
        (∀ k < cnt, u.got.getD k false = true → out.getD k 0 = u.out.getD k 0) ∧
        exec (.regRead addr cnt region ch) s = .next { s with
          ctl := .idle, txn := Txn.none, rxFeed := rest, txFeed := s.txFeed.drop rds.length
          draws := s.draws + 1
          trace := s.trace ++ rds.map .wrote ++ harvestEvents bss ++ [.didRead .tErr]
          replies := s.replies ++ [.regRead .transportError out] }

/-- R152 with R281, R288-R290, R295, R359: `reg.clrbits8` reads one byte on `REG_CH` and, when that read is Ok, writes
it back with the bits of `m` cleared, as a second operation; when the read fails its operand checks, or a write or
read of it errs, or it is Incomplete, there is no write. That the host receives both operations' outcomes is
DEDUCED (log entry 17); the bytes of a failed write and of an unmatched output are log entries 9 and 4. -/
def Obligations.RegClrbitsResult : Prop :=
  ∀ a (m : Byte) (region : Half) (s : State), s.cfg.wf →
    let ch := s.cfg.regCh
    let rd := readWire a 1 region ch
    let done (tx : List WriteAnswer) (rx : List ReadAnswer) (n : Nat) (ev : List PortEvent) (rs : List Reply) :
        Host.Outcome State Fault Refusal :=
      .next { s with
        ctl := .idle, txn := Txn.none, txFeed := tx, rxFeed := rx, draws := s.draws + n
        trace := s.trace ++ ev, replies := s.replies ++ rs }
    (regionLegal region = false →
      exec (.regClrbits8 a m region) s = done s.txFeed s.rxFeed 0 [] [.regRead .badOperand []]) ∧
    (regionLegal region = true → 4096 ≤ a →
      exec (.regClrbits8 a m region) s = done s.txFeed s.rxFeed 0 [] [.regRead .rangeError []]) ∧
    (regionLegal region = true → a < 4096 →
      (∀ k tx, s.txFeed = .tErr k :: tx → ∃ out : List Byte, out.length = 1 ∧
        exec (.regClrbits8 a m region) s =
          done tx s.rxFeed 1 [.writeFailed (rd.take k)] [.regRead .transportError out]) ∧
      (∀ tx (bss : List (List Byte)) rx, s.txFeed = .ok :: tx → s.rxFeed = bss.map .bytes ++ .tErr :: rx →
        bss.length < s.cfg.harvestReads → harvestOpen s.cfg.frameOrder a 1 ch bss →
        ∃ out : List Byte, out.length = 1 ∧
          exec (.regClrbits8 a m region) s =
            done tx rx 1 (.wrote rd :: harvestEvents bss ++ [.didRead .tErr]) [.regRead .transportError out]) ∧
      ∀ tx (bss : List (List Byte)) rx, s.txFeed = .ok :: tx → s.rxFeed = bss.map .bytes ++ rx →
        harvestEnds s.cfg a 1 ch bss →
        let u := harvested s.cfg.frameOrder a 1 ch bss
        let v := u.out.headD 0
        let wr := writeWire a [v &&& ~~~m] region ch
        let reading : List PortEvent := .wrote rd :: harvestEvents bss
        (allGot u = false →
          exec (.regClrbits8 a m region) s = done tx rx 0 reading [.regRead .incomplete [v]]) ∧
        (∀ tx2, allGot u = true → tx = .ok :: tx2 →
          exec (.regClrbits8 a m region) s =
            done tx2 rx 0 (reading ++ [.wrote wr]) [.regRead .ok [v], .regWrite .ok]) ∧
        ∀ k tx2, allGot u = true → tx = .tErr k :: tx2 →
          exec (.regClrbits8 a m region) s =
            done tx2 rx 1 (reading ++ [.writeFailed (wr.take k)]) [.regRead .ok [v], .regWrite .transportError])

/-- R300-R302, R344: SESSION_INIT with a device that answers version 4 and a filter byte ends Ready: the receiver
is reset, and exactly three records are sent, the last one writing the filter byte with bit 0x10 cleared and only
its high byte enabled. That `acc` and `rxbuf` keep their contents over the RX_RESET is the model's choice (log
entry 7). -/
def Obligations.SessionInitReady : Prop :=
  ∀ (s : State) (bss1 bss2 : List (List Byte)) rest (v : Byte), s.cfg.wf → hasHalted s = false →
    acceptsWrites 3 s = true → s.rxFeed = bss1.map .bytes ++ (bss2.map .bytes ++ rest) →
    let ch := s.cfg.regCh
    let c (n : Nat) : Byte := BitVec.ofNat 8 (n + ch)
    let u1 := harvested s.cfg.frameOrder 0x0008 1 ch bss1
    let u2 := harvested s.cfg.frameOrder 0x0019 1 ch bss2
    harvestEnds s.cfg 0x0008 1 ch bss1 → harvestEnds s.cfg 0x0019 1 ch bss2 →
    u1.got = [true] → u1.out = [4] → u2.got = [true] → u2.out = [v] →
    exec .sessionInit s = .next { s with
      rx := { s.rx with
        st := .awaitingStatus, sf := 0, slot := 0, n := 0, pfx := 0, exp := .unknown, ovf := false
        rd := 0, lim := 0, retries := 0 }
      session := .ready, ctl := .idle, txn := Txn.none, rxFeed := rest, txFeed := s.txFeed.drop 3
      replies := s.replies ++ [.session .ready]
      trace := s.trace ++
        (.wrote [0, 0, 0, 0, 0x00, 0x08, c 0x10, 0x77] :: harvestEvents bss1 ++
          .wrote [0, 0, 0, 0, 0x80, 0x18, c 0x10, 0x77] :: harvestEvents bss2 ++
          [.wrote [0, v &&& 0xEF, 0x00, 0xFF, 0x80, 0x18, c 0x20, 0x77]]) }

/-- R300-R303, R344, R347, R359: SESSION_INIT stops at its first failing step: a version read that is not Ok (its
write or a harvest read errs, or it is Incomplete) is VersionReadFailed, a version other than 4 VersionMismatch,
and a filter read that is not Ok, or a filter write that errs, FilterClearFailure. The transport has seen exactly
the steps up to there, the receiver is reset, and there is no further step. The bytes of a failed write are log
entry 9, the contents of `acc` and `rxbuf` over the RX_RESET log entry 7. -/
def Obligations.SessionInitFatal : Prop :=
  ∀ s : State, s.cfg.wf → hasHalted s = false →
    let ch := s.cfg.regCh
    let o := s.cfg.frameOrder
    let c (n : Nat) : Byte := BitVec.ofNat 8 (n + ch)
    let rec1 : List Byte := [0, 0, 0, 0, 0x00, 0x08, c 0x10, 0x77]
    let rec2 : List Byte := [0, 0, 0, 0, 0x80, 0x18, c 0x10, 0x77]
    let rec3 (v : Byte) : List Byte := [0, v &&& 0xEF, 0x00, 0xFF, 0x80, 0x18, c 0x20, 0x77]
    let ends (code : FatalCode) (tx : List WriteAnswer) (rx : List ReadAnswer) (n : Nat) (ev : List PortEvent) : Prop :=
      let t : State := { s with
        rx := { s.rx with
          st := .awaitingStatus, sf := 0, slot := 0, n := 0, pfx := 0, exp := .unknown, ovf := false
          rd := 0, lim := 0, retries := 0 }
        session := .fatal code, ctl := .idle, txn := Txn.none, txFeed := tx, rxFeed := rx, draws := s.draws + n
        trace := s.trace ++ ev, replies := s.replies ++ [.session (.fatal code)] }
      exec .sessionInit s = .next t ∧ step t = .fault .afterFatal
    (∀ k tx, s.txFeed = .tErr k :: tx → ends .versionReadFailed tx s.rxFeed 1 [.writeFailed (rec1.take k)]) ∧
    (∀ tx (bss1 : List (List Byte)) rx, s.txFeed = .ok :: tx → s.rxFeed = bss1.map .bytes ++ .tErr :: rx →
      bss1.length < s.cfg.harvestReads → harvestOpen o 0x0008 1 ch bss1 →
      ends .versionReadFailed tx rx 1 (.wrote rec1 :: harvestEvents bss1 ++ [.didRead .tErr])) ∧
    ∀ tx (bss1 : List (List Byte)) rx, s.txFeed = .ok :: tx → s.rxFeed = bss1.map .bytes ++ rx →
      harvestEnds s.cfg 0x0008 1 ch bss1 →
      let u1 := harvested o 0x0008 1 ch bss1
      let ev1 : List PortEvent := .wrote rec1 :: harvestEvents bss1
      (u1.got = [false] → ends .versionReadFailed tx rx 0 ev1) ∧
      (u1.got = [true] → u1.out ≠ [4] → ends .versionMismatch tx rx 0 ev1) ∧
      (u1.got = [true] → u1.out = [4] →
        (∀ k tx2, tx = .tErr k :: tx2 → ends .filterClearFailure tx2 rx 1 (ev1 ++ [.writeFailed (rec2.take k)])) ∧
        (∀ tx2 (bss2 : List (List Byte)) rx2, tx = .ok :: tx2 → rx = bss2.map .bytes ++ .tErr :: rx2 →
          bss2.length < s.cfg.harvestReads → harvestOpen o 0x0019 1 ch bss2 →
          ends .filterClearFailure tx2 rx2 1 (ev1 ++ .wrote rec2 :: harvestEvents bss2 ++ [.didRead .tErr])) ∧
        ∀ tx2 (bss2 : List (List Byte)) rx2, tx = .ok :: tx2 → rx = bss2.map .bytes ++ rx2 →
          harvestEnds s.cfg 0x0019 1 ch bss2 →
          let u2 := harvested o 0x0019 1 ch bss2
          let ev2 := ev1 ++ .wrote rec2 :: harvestEvents bss2
          (u2.got = [false] → ends .filterClearFailure tx2 rx2 0 ev2) ∧
          ∀ k tx3 v, u2.got = [true] → u2.out = [v] → tx2 = .tErr k :: tx3 →
            ends .filterClearFailure tx3 rx2 1 (ev2 ++ [.writeFailed ((rec3 v).take k)]))

/-! ### What instructions leave alone -/

/-- R225, R290, R295, R348: no codec or register instruction, no unit of the transmit stream and no response word
touches the receiver. -/
def Obligations.ReceiverFrame : Prop :=
  ∀ i (s : State) t, actsOnReceiver i = false → exec i s = .next t → t.rx = s.rx

/-- R70, R224: only TLP_ENCODE changes a byte of the destination buffer. -/
def Obligations.HostMemFrame : Prop :=
  ∀ i (s : State) t, (∀ h cap, i ≠ .tlpEncode h cap) → exec i s = .next t → ∀ a, hostByte t a = hostByte s a

/-- R70, R82: only TLP_SEND, the register operations and their records put bytes on the transmit stream. -/
def Obligations.TransmitFrame : Prop :=
  ∀ i (s : State) t, maySend i = false → exec i s = .next t → txStream t = txStream s ∧ t.txFeed = s.txFeed

/-- R46: no instruction but SESSION_INIT reads or writes `S.session`: with another session value it does the same
and leaves that value. -/
def Obligations.SessionIsOpaque : Prop :=
  ∀ i (s : State) x, i ≠ .sessionInit → exec i (s.setSession x) = mapNext (fun t => t.setSession x) (exec i s)
end

