-- ==== Sys2Proof/Laws/Memory.lean ====
section
/-! SUPPORT. The laws of a byte space: a read after a store gives the bytes stored there and the old byte
everywhere else, and a store keeps the canonical form. -/

namespace Sys2Proof.Machine

/-- No listed address below a bound. -/
abbrev Memory.above (m : Memory) (a : Nat) : Prop := ∀ c ∈ m, a ≤ c.1

/-! ### Reading -/

@[simp] theorem Memory.read_nil (b : Nat) : Memory.read [] b = memDefault := rfl

theorem Memory.read_cons (c : Host.Cell) (m : Memory) (b : Nat) :
    Memory.read (c :: m) b = if c.1 = b then c.2 else Memory.read m b := rfl

/-- An address that no cell lists reads as the default. -/
theorem Memory.read_of_not_listed (m : Memory) (b : Nat) (h : ∀ c ∈ m, c.1 ≠ b) :
    Memory.read m b = memDefault := by
  induction m with
  | nil => rfl
  | cons c m ih =>
    rw [Memory.read_cons, if_neg (h c (by simp))]
    exact ih fun d hd => h d (by simp [hd])

theorem Memory.read_append_right (m n : Memory) (b : Nat) (h : ∀ c ∈ m, c.1 ≠ b) :
    Memory.read (m ++ n) b = Memory.read n b := by
  induction m with
  | nil => rfl
  | cons c m ih =>
    rw [List.cons_append, Memory.read_cons, if_neg (h c (by simp))]
    exact ih fun d hd => h d (by simp [hd])

theorem Memory.read_append_left (m n : Memory) (b : Nat) (h : ∀ c ∈ n, c.1 ≠ b) :
    Memory.read (m ++ n) b = Memory.read m b := by
  induction m with
  | nil => simpa using Memory.read_of_not_listed n b h
  | cons c m ih => simp only [List.cons_append, Memory.read_cons, ih]

/-- Filtering out other addresses does not change what an address reads as. -/
theorem Memory.read_filter (m : Memory) (p : Host.Cell → Bool) (b : Nat) (h : ∀ c ∈ m, c.1 = b → p c = true) :
    Memory.read (m.filter p) b = Memory.read m b := by
  induction m with
  | nil => rfl
  | cons c m ih =>
    have ih := ih fun d hd => h d (by simp [hd])
    by_cases hc : c.1 = b
    · rw [List.filter_cons_of_pos (h c (by simp) hc), Memory.read_cons, Memory.read_cons, if_pos hc, if_pos hc]
    · rw [Memory.read_cons, if_neg hc, ← ih]
      by_cases hp : p c = true
      · rw [List.filter_cons_of_pos hp, Memory.read_cons, if_neg hc]
      · rw [List.filter_cons_of_neg hp]

/-! ### The cells of a store -/

theorem Memory.cells_bounds (a : Nat) (bs : List Byte) :
    ∀ c ∈ Memory.cells a bs, a ≤ c.1 ∧ c.1 < a + bs.length ∧ c.2 ≠ memDefault := by
  induction bs generalizing a with
  | nil => simp [Memory.cells]
  | cons b bs ih =>
    intro c hc
    rw [Memory.cells] at hc
    have step : ∀ c ∈ Memory.cells (a + 1) bs, a ≤ c.1 ∧ c.1 < a + (b :: bs).length ∧ c.2 ≠ memDefault := by
      intro d hd
      obtain ⟨h1, h2, h3⟩ := ih (a + 1) d hd
      refine ⟨by omega, ?_, h3⟩
      rw [List.length_cons]; omega
    split at hc
    · exact step c hc
    · rename_i hb
      rcases List.mem_cons.mp hc with rfl | hc
      · exact ⟨le_rfl, by simp, hb⟩
      · exact step c hc

theorem Memory.read_cells (a : Nat) (bs : List Byte) (b : Nat) (h1 : a ≤ b) (h2 : b < a + bs.length) :
    Memory.read (Memory.cells a bs) b = bs.getD (b - a) 0 := by
  induction bs generalizing a with
  | nil => simp at h2; omega
  | cons v bs ih =>
    rw [Memory.cells]
    by_cases hab : a = b
    · subst hab
      split
      · rename_i hv
        rw [Memory.read_of_not_listed]
        · simp [hv]
        · intro c hc
          have := (Memory.cells_bounds (a + 1) bs c hc).1
          omega
      · simp [Memory.read_cons]
    · have e : b - a = (b - (a + 1)) + 1 := by omega
      have := ih (a + 1) (by omega) (by rw [List.length_cons] at h2; omega)
      split
      · rw [this, e, List.getD_cons_succ]
      · rw [Memory.read_cons, if_neg hab, this, e, List.getD_cons_succ]

theorem Memory.cells_wf (a : Nat) (bs : List Byte) : Memory.wf (Memory.cells a bs) := by
  refine ⟨?_, fun c hc => (Memory.cells_bounds a bs c hc).2.2⟩
  induction bs generalizing a with
  | nil => simp [Memory.cells]
  | cons v bs ih =>
    rw [Memory.cells]
    split
    · exact ih (a + 1)
    · refine List.pairwise_cons.mpr ⟨fun c hc => ?_, ih (a + 1)⟩
      have := (Memory.cells_bounds (a + 1) bs c hc).1
      show a < c.1
      omega

/-! ### Storing -/

/-- What a store can do: an address inside the stored bytes reads as the byte stored there, every other
address as before. -/
theorem Memory.read_store (m : Memory) (a : Nat) (bs : List Byte) (b : Nat) :
    Memory.read (Memory.store m a bs) b =
      if a ≤ b ∧ b < a + bs.length then bs.getD (b - a) 0 else Memory.read m b := by
  unfold Memory.store
  have hc := Memory.cells_bounds a bs
  split
  · rename_i h
    rw [Memory.read_append_right _ _ _ (by
        intro c hm; have := (List.mem_filter.mp hm).2; simp at this; omega),
      Memory.read_append_left _ _ _ (by
        intro c hm; have := (List.mem_filter.mp hm).2; simp at this; omega),
      Memory.read_cells a bs b h.1 h.2]
  · rename_i h
    by_cases hb : b < a
    · rw [Memory.read_append_left _ _ _ (by
          intro c hm
          rcases List.mem_append.mp hm with hm | hm
          · have := hc c hm; omega
          · have := (List.mem_filter.mp hm).2; simp at this; omega)]
      exact Memory.read_filter m _ b fun c _ e => by simp [e, hb]
    · rw [Memory.read_append_right _ _ _ (by
          intro c hm; have := (List.mem_filter.mp hm).2; simp at this; omega),
        Memory.read_append_right _ _ _ (by intro c hm; have := hc c hm; omega)]
      exact Memory.read_filter m _ b fun c _ e => by simp [e]; omega

/-- A store keeps the canonical form. -/
theorem Memory.store_wf (m : Memory) (a : Nat) (bs : List Byte) (h : Memory.wf m) :
    Memory.wf (Memory.store m a bs) := by
  unfold Memory.store
  have hc := Memory.cells_bounds a bs
  refine ⟨?_, ?_⟩
  · rw [List.pairwise_append, List.pairwise_append]
    refine ⟨h.1.filter _, ⟨(Memory.cells_wf a bs).1, h.1.filter _, ?_⟩, ?_⟩
    · intro c hc1 d hd
      have := hc c hc1
      have hd := (List.mem_filter.mp hd).2
      simp at hd
      omega
    · intro c hc1 d hd
      have h1 := (List.mem_filter.mp hc1).2
      simp at h1
      rcases List.mem_append.mp hd with hd | hd
      · have := hc d hd; omega
      · have hd := (List.mem_filter.mp hd).2
        simp at hd
        omega
  · intro c hm
    rcases List.mem_append.mp hm with hm | hm
    · exact h.2 c (List.mem_filter.mp hm).1
    · rcases List.mem_append.mp hm with hm | hm
      · exact (hc c hm).2.2
      · exact h.2 c (List.mem_filter.mp hm).1

/-- A store lists no address beyond the old ones and those it stores to. -/
theorem Memory.store_bound (m : Memory) (a : Nat) (bs : List Byte) (k : Nat)
    (h : ∀ c ∈ m, c.1 < k) (hb : a + bs.length ≤ k) : ∀ c ∈ Memory.store m a bs, c.1 < k := by
  intro c hm
  rcases List.mem_append.mp hm with hm | hm
  · exact h c (List.mem_filter.mp hm).1
  · rcases List.mem_append.mp hm with hm | hm
    · have := Memory.cells_bounds a bs c hm; omega
    · exact h c (List.mem_filter.mp hm).1

/-- The empty space is in canonical form. -/
theorem Memory.wf_nil : Memory.wf ([] : Memory) := ⟨List.Pairwise.nil, by simp⟩

/-- Both byte spaces of the reset state are in canonical form. -/
theorem Memory.wf_reset : Memory.wf State.reset.rx.rxbuf ∧ Memory.wf State.reset.hostMem :=
  ⟨Memory.wf_nil, Memory.wf_nil⟩

/-! ### The operations that store -/

/-- A new receive buffer keeps the canonical form (R71). -/
theorem loadBuffer_wf (bs : List Byte) (r : Receiver) (h : Memory.wf r.rxbuf) :
    Memory.wf (loadBuffer bs r).rxbuf := Memory.store_wf _ _ _ h

/-- Byte `i` of a new receive buffer (R161, R71). -/
theorem loadBuffer_read (bs : List Byte) (r : Receiver) (i : Nat) :
    Memory.read (loadBuffer bs r).rxbuf i = if i < bs.length then bs.getD i 0 else Memory.read r.rxbuf i := by
  show Memory.read (Memory.store r.rxbuf 0 bs) i = _
  rw [Memory.read_store]
  simp

/-- Word `i` of a new receive buffer, for a word it holds (R37, R161). -/
theorem loadBuffer_word (bs : List Byte) (r : Receiver) (i : Nat) (h : 4 * i + 3 < bs.length) :
    bufWord (loadBuffer bs r) i =
      be32 (bs.getD (4 * i) 0) (bs.getD (4 * i + 1) 0) (bs.getD (4 * i + 2) 0) (bs.getD (4 * i + 3) 0) := by
  unfold bufWord
  rw [loadBuffer_read, loadBuffer_read, loadBuffer_read, loadBuffer_read,
    if_pos (by omega), if_pos (by omega), if_pos (by omega), if_pos h]

end Sys2Proof.Machine
end

