-- ==== Sys2Proof/Laws/PerInstr.lean ====
section
/-! SUPPORT. What is said of every instruction, one lemma per constructor: the words the encoder writes obey
the fixed bits of the instruction's row of spec/opcode_table.json, and a pseudo-instruction has no words. -/

namespace Sys2Proof.Laws

/-- The format, the mask and the match of an instruction's row of spec/opcode_table.json; `none` for the rows
that give no bits, the pseudo-instructions. -/
def tableRow (i : Instr) : Option (Format × Nat × Nat) :=
  match i with
  | .rxDecode => some (.hostCmd, 0xFF, 0x1)
  | .rxDiscard => some (.hostCmd, 0xFF, 0x2)
  | .rxReset => some (.hostCmd, 0xFF, 0x3)
  | .tlpHdrlen _ => some (.hostCmd, 0xFF, 0x10)
  | .tlpDecode _ => some (.hostCmd, 0xFF, 0x11)
  | .tlpEncode _ _ => some (.hostCmd, 0xFF, 0x12)
  | .tlpSend _ _ => some (.hostCmd, 0xFF, 0x13)
  | .cfgRegoff _ => some (.hostCmd, 0xFF, 0x14)
  | .regRead _ _ _ _ => some (.hostCmd, 0xFF, 0x20)
  | .regWrite _ _ _ _ => some (.hostCmd, 0xFF, 0x21)
  | .sessionInit => some (.hostCmd, 0xFF, 0x30)
  | .regRead8 _ _ => none
  | .regClrbits8 _ _ _ => none
  | .rxResync => none
  | .rxNext => none
  | .status _ => some (.rxStatus, 0xF0000000, 0xE0000000)
  | .filler => some (.rxStatus, 0xFFFFFFFF, 0x55556666)
  | .slotTlpData _ => some (.slot, 0x7, 0x0)
  | .slotTlpLast _ => some (.slot, 0x7, 0x4)
  | .slotNonTlp01 _ => some (.slot, 0x3, 0x1)
  | .slotNonTlp10 _ => some (.slot, 0x3, 0x2)
  | .slotNonTlp11 _ => some (.slot, 0x3, 0x3)
  | .regresp _ _ _ => some (.regResp, 0x0, 0x0)
  | .regRd _ _ _ => some (.regReq, 0xFFFFFFFF3001FCFF, 0x1077)
  | .regWr _ _ _ _ _ _ _ => some (.regReq, 0x3001FCFF, 0x2077)
  | .txTlpWord _ => some (.txTlp, 0xFFFFFFFF, 0x77)
  | .txTlpLast _ => some (.txTlp, 0xFFFFFFFF, 0x477)
  | .fmt3dwNodata _ => some (.tlpFmt, 0xE0000000, 0x0)
  | .fmt4dwNodata _ => some (.tlpFmt, 0xE0000000, 0x20000000)
  | .fmt3dwData _ => some (.tlpFmt, 0xE0000000, 0x40000000)
  | .fmt4dwData _ => some (.tlpFmt, 0xE0000000, 0x60000000)
  | .fmtPrefix _ => some (.tlpFmt, 0xE0000000, 0x80000000)
  | .fmtRsvd101 _ => some (.tlpFmt, 0xE0000000, 0xA0000000)
  | .fmtRsvd110 _ => some (.tlpFmt, 0xE0000000, 0xC0000000)
  | .fmtRsvd111 _ => some (.tlpFmt, 0xE0000000, 0xE0000000)
  | .mrd32 _ => some (.tlpType, 0xFF000000, 0x0)
  | .mrd64 _ => some (.tlpType, 0xFF000000, 0x20000000)
  | .mrdLk32 _ => some (.tlpType, 0xFF000000, 0x1000000)
  | .mrdLk64 _ => some (.tlpType, 0xFF000000, 0x21000000)
  | .mwr32 _ => some (.tlpType, 0xFF000000, 0x40000000)
  | .mwr64 _ => some (.tlpType, 0xFF000000, 0x60000000)
  | .iord _ => some (.tlpType, 0xFF000000, 0x2000000)
  | .iowr _ => some (.tlpType, 0xFF000000, 0x42000000)
  | .cfgRd0 _ => some (.tlpType, 0xFF000000, 0x4000000)
  | .cfgWr0 _ => some (.tlpType, 0xFF000000, 0x44000000)
  | .cfgRd1 _ => some (.tlpType, 0xFF000000, 0x5000000)
  | .cfgWr1 _ => some (.tlpType, 0xFF000000, 0x45000000)
  | .msg _ => some (.tlpType, 0xF8000000, 0x30000000)
  | .msgD _ => some (.tlpType, 0xF8000000, 0x70000000)
  | .cpl _ => some (.tlpType, 0xFF000000, 0xA000000)
  | .cplD _ => some (.tlpType, 0xFF000000, 0x4A000000)
  | .cplLk _ => some (.tlpType, 0xFF000000, 0xB000000)
  | .cplDLk _ => some (.tlpType, 0xFF000000, 0x4B000000)
  | .fetchAdd32 _ => some (.tlpType, 0xFF000000, 0x4C000000)
  | .fetchAdd64 _ => some (.tlpType, 0xFF000000, 0x6C000000)
  | .swap32 _ => some (.tlpType, 0xFF000000, 0x4D000000)
  | .swap64 _ => some (.tlpType, 0xFF000000, 0x6D000000)
  | .cas32 _ => some (.tlpType, 0xFF000000, 0x4E000000)
  | .cas64 _ => some (.tlpType, 0xFF000000, 0x6E000000)
  | .lprfx _ => some (.tlpType, 0xF0000000, 0x80000000)
  | .eprfx _ => some (.tlpType, 0xF0000000, 0x90000000)

/-- The first word of an instruction's packet has its row's format and fixed bits; an instruction whose row
gives no bits has no packet. -/
def EncodesTableRow.Statement (i : Instr) : Prop :=
  match tableRow i with
  | none => encode i = none
  | some (f, mask, m) => ∃ n ops, encode i = some ⟨f, n :: ops⟩ ∧ n &&& mask = m

/-! ### Fixed bits above and below free ones -/

theorem append_and_high {n k : Nat} (a : BitVec n) (b : BitVec k) :
    (a ++ b).toNat &&& ((2 ^ n - 1) * 2 ^ k) = a.toNat * 2 ^ k := by
  apply Nat.eq_of_testBit_eq
  intro i
  simp only [BitVec.toNat_append, Nat.testBit_and, Nat.testBit_or, Nat.testBit_mul_two_pow, Nat.testBit_shiftLeft,
    Nat.testBit_two_pow_sub_one]
  by_cases h : k ≤ i
  · have hb : b.toNat.testBit i = false := Nat.testBit_lt_two_pow (lt_of_lt_of_le b.isLt (Nat.pow_le_pow_right (by omega) h))
    by_cases h2 : i - k < n
    · simp [h, h2, hb]
    · have ha : a.toNat.testBit (i - k) = false :=
        Nat.testBit_lt_two_pow (lt_of_lt_of_le a.isLt (Nat.pow_le_pow_right (by omega) (by omega)))
      simp [h2, ha]
  · simp [h]

theorem append_and_low {n k : Nat} (a : BitVec n) (b : BitVec k) :
    (a ++ b).toNat &&& (2 ^ k - 1) = b.toNat := by
  rw [Nat.and_two_pow_sub_one_eq_mod, BitVec.toNat_append, Nat.shiftLeft_eq, Nat.mul_comm,
    ← Nat.two_pow_add_eq_or_of_lt b.isLt, Nat.mul_add_mod, Nat.mod_eq_of_lt b.isLt]

theorem append_toNat_and {n : Nat} (v : BitVec n) (mask m : BitVec n) (h : v &&& mask = m) :
    v.toNat &&& mask.toNat = m.toNat := by
  rw [← BitVec.toNat_and, h]

/-- The command bits of a read record and of a write record (R126). -/
theorem cmdBits_read : cmdBits Lit.cmdRead = 0b000100#6 := rfl
theorem cmdBits_write : cmdBits Lit.cmdWrite = 0b001000#6 := rfl

/-! ### The rows -/

theorem EncodesTableRow.rxDecode : EncodesTableRow.Statement .rxDecode := ⟨_, _, rfl, rfl⟩
theorem EncodesTableRow.rxDiscard : EncodesTableRow.Statement .rxDiscard := ⟨_, _, rfl, rfl⟩
theorem EncodesTableRow.rxReset : EncodesTableRow.Statement .rxReset := ⟨_, _, rfl, rfl⟩
theorem EncodesTableRow.tlpHdrlen (w : Word) : EncodesTableRow.Statement (.tlpHdrlen w) := ⟨_, _, rfl, rfl⟩
theorem EncodesTableRow.tlpDecode (ws : List Word) :
    EncodesTableRow.Statement (.tlpDecode ws) := ⟨_, _, rfl, rfl⟩
theorem EncodesTableRow.tlpEncode (h : Header) (cap : Nat) :
    EncodesTableRow.Statement (.tlpEncode h cap) := ⟨_, _, rfl, rfl⟩
theorem EncodesTableRow.tlpSend (h : Header) (tail : List Word) :
    EncodesTableRow.Statement (.tlpSend h tail) := ⟨_, _, rfl, rfl⟩
theorem EncodesTableRow.cfgRegoff (h : Header) : EncodesTableRow.Statement (.cfgRegoff h) := ⟨_, _, rfl, rfl⟩
theorem EncodesTableRow.regRead (addr cnt : Nat) (region : Half) (ch : Nat) :
    EncodesTableRow.Statement (.regRead addr cnt region ch) := ⟨_, _, rfl, rfl⟩
theorem EncodesTableRow.regWrite (addr : Nat) (data : List Byte) (region : Half) (ch : Nat) :
    EncodesTableRow.Statement (.regWrite addr data region ch) := ⟨_, _, rfl, rfl⟩
theorem EncodesTableRow.sessionInit : EncodesTableRow.Statement .sessionInit := ⟨_, _, rfl, rfl⟩
theorem EncodesTableRow.regRead8 (a : Nat) (region : Half) :
    EncodesTableRow.Statement (.regRead8 a region) := rfl
theorem EncodesTableRow.regClrbits8 (a : Nat) (m : Byte) (region : Half) :
    EncodesTableRow.Statement (.regClrbits8 a m region) := rfl
theorem EncodesTableRow.rxResync : EncodesTableRow.Statement .rxResync := rfl
theorem EncodesTableRow.rxNext : EncodesTableRow.Statement .rxNext := rfl
theorem EncodesTableRow.status (slots : BitVec 28) :
    EncodesTableRow.Statement (.status slots) := ⟨_, _, rfl, append_and_high _ _⟩
theorem EncodesTableRow.filler : EncodesTableRow.Statement .filler := ⟨_, _, rfl, rfl⟩
theorem EncodesTableRow.slotTlpData (b3 : BitVec 1) :
    EncodesTableRow.Statement (.slotTlpData b3) := ⟨_, _, rfl, append_and_low _ _⟩
theorem EncodesTableRow.slotTlpLast (b3 : BitVec 1) :
    EncodesTableRow.Statement (.slotTlpLast b3) := ⟨_, _, rfl, append_and_low _ _⟩
theorem EncodesTableRow.slotNonTlp01 (hi : BitVec 2) :
    EncodesTableRow.Statement (.slotNonTlp01 hi) := ⟨_, _, rfl, append_and_low _ _⟩
theorem EncodesTableRow.slotNonTlp10 (hi : BitVec 2) :
    EncodesTableRow.Statement (.slotNonTlp10 hi) := ⟨_, _, rfl, append_and_low _ _⟩
theorem EncodesTableRow.slotNonTlp11 (hi : BitVec 2) :
    EncodesTableRow.Statement (.slotNonTlp11 hi) := ⟨_, _, rfl, append_and_low _ _⟩
theorem EncodesTableRow.regresp (a : Half) (dA dA1 : Byte) :
    EncodesTableRow.Statement (.regresp a dA dA1) := ⟨_, _, rfl, Nat.and_zero _⟩
theorem EncodesTableRow.regRd (region : BitVec 2) (pair : BitVec 11) (ch : BitVec 2) :
    EncodesTableRow.Statement (.regRd region pair ch) :=
  ⟨_, _, rfl, append_toNat_and (regRdRec region pair ch) 0xFFFFFFFF3001FCFF 0x1077 (by
    apply BitVec.eq_of_getLsbD_eq
    intro i hi
    rw [BitVec.getLsbD_and]
    unfold regRdRec regReqLow
    rw [cmdBits_read]
    interval_cases i <;>
      simp only [BitVec.getLsbD_append, Lit.recTrailer, Nat.reduceLT, Nat.reduceSub, ite_true, ite_false,
        BitVec.getLsbD_ofNat] <;>
      simp [Nat.testBit, Nat.shiftRight_eq_div_pow])⟩
theorem EncodesTableRow.regWr (d0 d1 beLo beHi : Byte) (region : BitVec 2) (pair : BitVec 11) (ch : BitVec 2) :
    EncodesTableRow.Statement (.regWr d0 d1 beLo beHi region pair ch) :=
  ⟨_, _, rfl, append_toNat_and (regWrRec d0 d1 beLo beHi region pair ch) 0x3001FCFF 0x2077 (by
    apply BitVec.eq_of_getLsbD_eq
    intro i hi
    rw [BitVec.getLsbD_and]
    unfold regWrRec regReqLow
    rw [cmdBits_write]
    interval_cases i <;>
      simp only [BitVec.getLsbD_append, Lit.recTrailer, Nat.reduceLT, Nat.reduceSub, ite_true, ite_false,
        BitVec.getLsbD_ofNat] <;>
      simp [Nat.testBit, Nat.shiftRight_eq_div_pow])⟩
theorem EncodesTableRow.txTlpWord (w : Word) :
    EncodesTableRow.Statement (.txTlpWord w) := ⟨_, _, rfl, append_and_low w _⟩
theorem EncodesTableRow.txTlpLast (w : Word) :
    EncodesTableRow.Statement (.txTlpLast w) := ⟨_, _, rfl, append_and_low w _⟩
theorem EncodesTableRow.fmt3dwNodata (rest : BitVec 29) :
    EncodesTableRow.Statement (.fmt3dwNodata rest) := ⟨_, _, rfl, append_and_high _ _⟩
theorem EncodesTableRow.fmt4dwNodata (rest : BitVec 29) :
    EncodesTableRow.Statement (.fmt4dwNodata rest) := ⟨_, _, rfl, append_and_high _ _⟩
theorem EncodesTableRow.fmt3dwData (rest : BitVec 29) :
    EncodesTableRow.Statement (.fmt3dwData rest) := ⟨_, _, rfl, append_and_high _ _⟩
theorem EncodesTableRow.fmt4dwData (rest : BitVec 29) :
    EncodesTableRow.Statement (.fmt4dwData rest) := ⟨_, _, rfl, append_and_high _ _⟩
theorem EncodesTableRow.fmtPrefix (rest : BitVec 29) :
    EncodesTableRow.Statement (.fmtPrefix rest) := ⟨_, _, rfl, append_and_high _ _⟩
theorem EncodesTableRow.fmtRsvd101 (rest : BitVec 29) :
    EncodesTableRow.Statement (.fmtRsvd101 rest) := ⟨_, _, rfl, append_and_high _ _⟩
theorem EncodesTableRow.fmtRsvd110 (rest : BitVec 29) :
    EncodesTableRow.Statement (.fmtRsvd110 rest) := ⟨_, _, rfl, append_and_high _ _⟩
theorem EncodesTableRow.fmtRsvd111 (rest : BitVec 29) :
    EncodesTableRow.Statement (.fmtRsvd111 rest) := ⟨_, _, rfl, append_and_high _ _⟩
theorem EncodesTableRow.mrd32 (rest : BitVec 24) :
    EncodesTableRow.Statement (.mrd32 rest) := ⟨_, _, rfl, append_and_high _ _⟩
theorem EncodesTableRow.mrd64 (rest : BitVec 24) :
    EncodesTableRow.Statement (.mrd64 rest) := ⟨_, _, rfl, append_and_high _ _⟩
theorem EncodesTableRow.mrdLk32 (rest : BitVec 24) :
    EncodesTableRow.Statement (.mrdLk32 rest) := ⟨_, _, rfl, append_and_high _ _⟩
theorem EncodesTableRow.mrdLk64 (rest : BitVec 24) :
    EncodesTableRow.Statement (.mrdLk64 rest) := ⟨_, _, rfl, append_and_high _ _⟩
theorem EncodesTableRow.mwr32 (rest : BitVec 24) :
    EncodesTableRow.Statement (.mwr32 rest) := ⟨_, _, rfl, append_and_high _ _⟩
theorem EncodesTableRow.mwr64 (rest : BitVec 24) :
    EncodesTableRow.Statement (.mwr64 rest) := ⟨_, _, rfl, append_and_high _ _⟩
theorem EncodesTableRow.iord (rest : BitVec 24) :
    EncodesTableRow.Statement (.iord rest) := ⟨_, _, rfl, append_and_high _ _⟩
theorem EncodesTableRow.iowr (rest : BitVec 24) :
    EncodesTableRow.Statement (.iowr rest) := ⟨_, _, rfl, append_and_high _ _⟩
theorem EncodesTableRow.cfgRd0 (rest : BitVec 24) :
    EncodesTableRow.Statement (.cfgRd0 rest) := ⟨_, _, rfl, append_and_high _ _⟩
theorem EncodesTableRow.cfgWr0 (rest : BitVec 24) :
    EncodesTableRow.Statement (.cfgWr0 rest) := ⟨_, _, rfl, append_and_high _ _⟩
theorem EncodesTableRow.cfgRd1 (rest : BitVec 24) :
    EncodesTableRow.Statement (.cfgRd1 rest) := ⟨_, _, rfl, append_and_high _ _⟩
theorem EncodesTableRow.cfgWr1 (rest : BitVec 24) :
    EncodesTableRow.Statement (.cfgWr1 rest) := ⟨_, _, rfl, append_and_high _ _⟩
theorem EncodesTableRow.msg (rest : BitVec 27) :
    EncodesTableRow.Statement (.msg rest) := ⟨_, _, rfl, append_and_high _ _⟩
theorem EncodesTableRow.msgD (rest : BitVec 27) :
    EncodesTableRow.Statement (.msgD rest) := ⟨_, _, rfl, append_and_high _ _⟩
theorem EncodesTableRow.cpl (rest : BitVec 24) :
    EncodesTableRow.Statement (.cpl rest) := ⟨_, _, rfl, append_and_high _ _⟩
theorem EncodesTableRow.cplD (rest : BitVec 24) :
    EncodesTableRow.Statement (.cplD rest) := ⟨_, _, rfl, append_and_high _ _⟩
theorem EncodesTableRow.cplLk (rest : BitVec 24) :
    EncodesTableRow.Statement (.cplLk rest) := ⟨_, _, rfl, append_and_high _ _⟩
theorem EncodesTableRow.cplDLk (rest : BitVec 24) :
    EncodesTableRow.Statement (.cplDLk rest) := ⟨_, _, rfl, append_and_high _ _⟩
theorem EncodesTableRow.fetchAdd32 (rest : BitVec 24) :
    EncodesTableRow.Statement (.fetchAdd32 rest) := ⟨_, _, rfl, append_and_high _ _⟩
theorem EncodesTableRow.fetchAdd64 (rest : BitVec 24) :
    EncodesTableRow.Statement (.fetchAdd64 rest) := ⟨_, _, rfl, append_and_high _ _⟩
theorem EncodesTableRow.swap32 (rest : BitVec 24) :
    EncodesTableRow.Statement (.swap32 rest) := ⟨_, _, rfl, append_and_high _ _⟩
theorem EncodesTableRow.swap64 (rest : BitVec 24) :
    EncodesTableRow.Statement (.swap64 rest) := ⟨_, _, rfl, append_and_high _ _⟩
theorem EncodesTableRow.cas32 (rest : BitVec 24) :
    EncodesTableRow.Statement (.cas32 rest) := ⟨_, _, rfl, append_and_high _ _⟩
theorem EncodesTableRow.cas64 (rest : BitVec 24) :
    EncodesTableRow.Statement (.cas64 rest) := ⟨_, _, rfl, append_and_high _ _⟩
theorem EncodesTableRow.lprfx (rest : BitVec 28) :
    EncodesTableRow.Statement (.lprfx rest) := ⟨_, _, rfl, append_and_high _ _⟩
theorem EncodesTableRow.eprfx (rest : BitVec 28) :
    EncodesTableRow.Statement (.eprfx rest) := ⟨_, _, rfl, append_and_high _ _⟩

end Sys2Proof.Laws
end

