-- ==== Sys2Proof/Laws/State.lean ====
section
/-! SUPPORT. What each field of the state is after each update: one rewriting lemma per field per update, so
that no later proof unfolds one. -/

namespace Sys2Proof.Machine

variable (s : State)

/-! ### setRx -/

@[simp] theorem State.setRx_cfg (r : Receiver) : (s.setRx r).cfg = s.cfg := rfl
@[simp] theorem State.setRx_rx (r : Receiver) : (s.setRx r).rx = r := rfl
@[simp] theorem State.setRx_session (r : Receiver) : (s.setRx r).session = s.session := rfl
@[simp] theorem State.setRx_txn (r : Receiver) : (s.setRx r).txn = s.txn := rfl
@[simp] theorem State.setRx_ctl (r : Receiver) : (s.setRx r).ctl = s.ctl := rfl
@[simp] theorem State.setRx_port (r : Receiver) : (s.setRx r).port = s.port := rfl
@[simp] theorem State.setRx_replies (r : Receiver) : (s.setRx r).replies = s.replies := rfl
@[simp] theorem State.setRx_diag (r : Receiver) : (s.setRx r).diag = s.diag := rfl
@[simp] theorem State.setRx_trace (r : Receiver) : (s.setRx r).trace = s.trace := rfl
@[simp] theorem State.setRx_rxFeed (r : Receiver) : (s.setRx r).rxFeed = s.rxFeed := rfl
@[simp] theorem State.setRx_txFeed (r : Receiver) : (s.setRx r).txFeed = s.txFeed := rfl
@[simp] theorem State.setRx_txFrame (r : Receiver) : (s.setRx r).txFrame = s.txFrame := rfl
@[simp] theorem State.setRx_hostMem (r : Receiver) : (s.setRx r).hostMem = s.hostMem := rfl
@[simp] theorem State.setRx_draws (r : Receiver) : (s.setRx r).draws = s.draws := rfl

/-! ### setTxn -/

@[simp] theorem State.setTxn_cfg (t : Txn) : (s.setTxn t).cfg = s.cfg := rfl
@[simp] theorem State.setTxn_rx (t : Txn) : (s.setTxn t).rx = s.rx := rfl
@[simp] theorem State.setTxn_session (t : Txn) : (s.setTxn t).session = s.session := rfl
@[simp] theorem State.setTxn_txn (t : Txn) : (s.setTxn t).txn = t := rfl
@[simp] theorem State.setTxn_ctl (t : Txn) : (s.setTxn t).ctl = s.ctl := rfl
@[simp] theorem State.setTxn_port (t : Txn) : (s.setTxn t).port = s.port := rfl
@[simp] theorem State.setTxn_replies (t : Txn) : (s.setTxn t).replies = s.replies := rfl
@[simp] theorem State.setTxn_diag (t : Txn) : (s.setTxn t).diag = s.diag := rfl
@[simp] theorem State.setTxn_trace (t : Txn) : (s.setTxn t).trace = s.trace := rfl
@[simp] theorem State.setTxn_rxFeed (t : Txn) : (s.setTxn t).rxFeed = s.rxFeed := rfl
@[simp] theorem State.setTxn_txFeed (t : Txn) : (s.setTxn t).txFeed = s.txFeed := rfl
@[simp] theorem State.setTxn_txFrame (t : Txn) : (s.setTxn t).txFrame = s.txFrame := rfl
@[simp] theorem State.setTxn_hostMem (t : Txn) : (s.setTxn t).hostMem = s.hostMem := rfl
@[simp] theorem State.setTxn_draws (t : Txn) : (s.setTxn t).draws = s.draws := rfl

/-! ### setCtl -/

@[simp] theorem State.setCtl_cfg (c : Ctl) : (s.setCtl c).cfg = s.cfg := rfl
@[simp] theorem State.setCtl_rx (c : Ctl) : (s.setCtl c).rx = s.rx := rfl
@[simp] theorem State.setCtl_session (c : Ctl) : (s.setCtl c).session = s.session := rfl
@[simp] theorem State.setCtl_txn (c : Ctl) : (s.setCtl c).txn = s.txn := rfl
@[simp] theorem State.setCtl_ctl (c : Ctl) : (s.setCtl c).ctl = c := rfl
@[simp] theorem State.setCtl_port (c : Ctl) : (s.setCtl c).port = s.port := rfl
@[simp] theorem State.setCtl_replies (c : Ctl) : (s.setCtl c).replies = s.replies := rfl
@[simp] theorem State.setCtl_diag (c : Ctl) : (s.setCtl c).diag = s.diag := rfl
@[simp] theorem State.setCtl_trace (c : Ctl) : (s.setCtl c).trace = s.trace := rfl
@[simp] theorem State.setCtl_rxFeed (c : Ctl) : (s.setCtl c).rxFeed = s.rxFeed := rfl
@[simp] theorem State.setCtl_txFeed (c : Ctl) : (s.setCtl c).txFeed = s.txFeed := rfl
@[simp] theorem State.setCtl_txFrame (c : Ctl) : (s.setCtl c).txFrame = s.txFrame := rfl
@[simp] theorem State.setCtl_hostMem (c : Ctl) : (s.setCtl c).hostMem = s.hostMem := rfl
@[simp] theorem State.setCtl_draws (c : Ctl) : (s.setCtl c).draws = s.draws := rfl

/-! ### setSession -/

@[simp] theorem State.setSession_cfg (x : Session) : (s.setSession x).cfg = s.cfg := rfl
@[simp] theorem State.setSession_rx (x : Session) : (s.setSession x).rx = s.rx := rfl
@[simp] theorem State.setSession_session (x : Session) : (s.setSession x).session = x := rfl
@[simp] theorem State.setSession_txn (x : Session) : (s.setSession x).txn = s.txn := rfl
@[simp] theorem State.setSession_ctl (x : Session) : (s.setSession x).ctl = s.ctl := rfl
@[simp] theorem State.setSession_port (x : Session) : (s.setSession x).port = s.port := rfl
@[simp] theorem State.setSession_replies (x : Session) : (s.setSession x).replies = s.replies := rfl
@[simp] theorem State.setSession_diag (x : Session) : (s.setSession x).diag = s.diag := rfl
@[simp] theorem State.setSession_trace (x : Session) : (s.setSession x).trace = s.trace := rfl
@[simp] theorem State.setSession_rxFeed (x : Session) : (s.setSession x).rxFeed = s.rxFeed := rfl
@[simp] theorem State.setSession_txFeed (x : Session) : (s.setSession x).txFeed = s.txFeed := rfl
@[simp] theorem State.setSession_txFrame (x : Session) : (s.setSession x).txFrame = s.txFrame := rfl
@[simp] theorem State.setSession_hostMem (x : Session) : (s.setSession x).hostMem = s.hostMem := rfl
@[simp] theorem State.setSession_draws (x : Session) : (s.setSession x).draws = s.draws := rfl

/-! ### setFrame -/

@[simp] theorem State.setFrame_cfg (bs : List Byte) : (s.setFrame bs).cfg = s.cfg := rfl
@[simp] theorem State.setFrame_rx (bs : List Byte) : (s.setFrame bs).rx = s.rx := rfl
@[simp] theorem State.setFrame_session (bs : List Byte) : (s.setFrame bs).session = s.session := rfl
@[simp] theorem State.setFrame_txn (bs : List Byte) : (s.setFrame bs).txn = s.txn := rfl
@[simp] theorem State.setFrame_ctl (bs : List Byte) : (s.setFrame bs).ctl = s.ctl := rfl
@[simp] theorem State.setFrame_port (bs : List Byte) : (s.setFrame bs).port = s.port := rfl
@[simp] theorem State.setFrame_replies (bs : List Byte) : (s.setFrame bs).replies = s.replies := rfl
@[simp] theorem State.setFrame_diag (bs : List Byte) : (s.setFrame bs).diag = s.diag := rfl
@[simp] theorem State.setFrame_trace (bs : List Byte) : (s.setFrame bs).trace = s.trace := rfl
@[simp] theorem State.setFrame_rxFeed (bs : List Byte) : (s.setFrame bs).rxFeed = s.rxFeed := rfl
@[simp] theorem State.setFrame_txFeed (bs : List Byte) : (s.setFrame bs).txFeed = s.txFeed := rfl
@[simp] theorem State.setFrame_txFrame (bs : List Byte) : (s.setFrame bs).txFrame = bs := rfl
@[simp] theorem State.setFrame_hostMem (bs : List Byte) : (s.setFrame bs).hostMem = s.hostMem := rfl
@[simp] theorem State.setFrame_draws (bs : List Byte) : (s.setFrame bs).draws = s.draws := rfl

/-! ### addReply -/

@[simp] theorem State.addReply_cfg (r : Reply) : (s.addReply r).cfg = s.cfg := rfl
@[simp] theorem State.addReply_rx (r : Reply) : (s.addReply r).rx = s.rx := rfl
@[simp] theorem State.addReply_session (r : Reply) : (s.addReply r).session = s.session := rfl
@[simp] theorem State.addReply_txn (r : Reply) : (s.addReply r).txn = s.txn := rfl
@[simp] theorem State.addReply_ctl (r : Reply) : (s.addReply r).ctl = s.ctl := rfl
@[simp] theorem State.addReply_port (r : Reply) : (s.addReply r).port = s.port := rfl
@[simp] theorem State.addReply_replies (r : Reply) : (s.addReply r).replies = s.replies ++ [r] := rfl
@[simp] theorem State.addReply_diag (r : Reply) : (s.addReply r).diag = s.diag := rfl
@[simp] theorem State.addReply_trace (r : Reply) : (s.addReply r).trace = s.trace := rfl
@[simp] theorem State.addReply_rxFeed (r : Reply) : (s.addReply r).rxFeed = s.rxFeed := rfl
@[simp] theorem State.addReply_txFeed (r : Reply) : (s.addReply r).txFeed = s.txFeed := rfl
@[simp] theorem State.addReply_txFrame (r : Reply) : (s.addReply r).txFrame = s.txFrame := rfl
@[simp] theorem State.addReply_hostMem (r : Reply) : (s.addReply r).hostMem = s.hostMem := rfl
@[simp] theorem State.addReply_draws (r : Reply) : (s.addReply r).draws = s.draws := rfl

/-! ### addEvent -/

@[simp] theorem State.addEvent_cfg (e : PortEvent) : (s.addEvent e).cfg = s.cfg := rfl
@[simp] theorem State.addEvent_rx (e : PortEvent) : (s.addEvent e).rx = s.rx := rfl
@[simp] theorem State.addEvent_session (e : PortEvent) : (s.addEvent e).session = s.session := rfl
@[simp] theorem State.addEvent_txn (e : PortEvent) : (s.addEvent e).txn = s.txn := rfl
@[simp] theorem State.addEvent_ctl (e : PortEvent) : (s.addEvent e).ctl = s.ctl := rfl
@[simp] theorem State.addEvent_port (e : PortEvent) : (s.addEvent e).port = s.port := rfl
@[simp] theorem State.addEvent_replies (e : PortEvent) : (s.addEvent e).replies = s.replies := rfl
@[simp] theorem State.addEvent_diag (e : PortEvent) : (s.addEvent e).diag = s.diag := rfl
@[simp] theorem State.addEvent_trace (e : PortEvent) : (s.addEvent e).trace = s.trace ++ [e] := rfl
@[simp] theorem State.addEvent_rxFeed (e : PortEvent) : (s.addEvent e).rxFeed = s.rxFeed := rfl
@[simp] theorem State.addEvent_txFeed (e : PortEvent) : (s.addEvent e).txFeed = s.txFeed := rfl
@[simp] theorem State.addEvent_txFrame (e : PortEvent) : (s.addEvent e).txFrame = s.txFrame := rfl
@[simp] theorem State.addEvent_hostMem (e : PortEvent) : (s.addEvent e).hostMem = s.hostMem := rfl
@[simp] theorem State.addEvent_draws (e : PortEvent) : (s.addEvent e).draws = s.draws := rfl

/-! ### deliver -/

@[simp] theorem deliver_cfg (r : Reply) : (deliver r s).cfg = s.cfg := rfl
@[simp] theorem deliver_rx (r : Reply) : (deliver r s).rx = s.rx := rfl
@[simp] theorem deliver_session (r : Reply) : (deliver r s).session = s.session := rfl
@[simp] theorem deliver_txn (r : Reply) : (deliver r s).txn = s.txn := rfl
@[simp] theorem deliver_ctl (r : Reply) : (deliver r s).ctl = .idle := rfl
@[simp] theorem deliver_port (r : Reply) : (deliver r s).port = s.port := rfl
@[simp] theorem deliver_replies (r : Reply) : (deliver r s).replies = s.replies ++ [r] := rfl
@[simp] theorem deliver_diag (r : Reply) : (deliver r s).diag = s.diag := rfl
@[simp] theorem deliver_trace (r : Reply) : (deliver r s).trace = s.trace := rfl
@[simp] theorem deliver_rxFeed (r : Reply) : (deliver r s).rxFeed = s.rxFeed := rfl
@[simp] theorem deliver_txFeed (r : Reply) : (deliver r s).txFeed = s.txFeed := rfl
@[simp] theorem deliver_txFrame (r : Reply) : (deliver r s).txFrame = s.txFrame := rfl
@[simp] theorem deliver_hostMem (r : Reply) : (deliver r s).hostMem = s.hostMem := rfl
@[simp] theorem deliver_draws (r : Reply) : (deliver r s).draws = s.draws := rfl

/-! ### emitRx -/

@[simp] theorem emitRx_cfg (r : Reply) : (emitRx r s).cfg = s.cfg := rfl
@[simp] theorem emitRx_rx (r : Reply) : (emitRx r s).rx = s.rx := rfl
@[simp] theorem emitRx_session (r : Reply) : (emitRx r s).session = s.session := rfl
@[simp] theorem emitRx_txn (r : Reply) : (emitRx r s).txn = s.txn := rfl
@[simp] theorem emitRx_ctl (r : Reply) : (emitRx r s).ctl = ctlAfterRx s.ctl r := rfl
@[simp] theorem emitRx_port (r : Reply) : (emitRx r s).port = s.port := rfl
@[simp] theorem emitRx_replies (r : Reply) : (emitRx r s).replies = s.replies ++ [r] := rfl
@[simp] theorem emitRx_diag (r : Reply) : (emitRx r s).diag = s.diag ++ diagOf r := rfl
@[simp] theorem emitRx_trace (r : Reply) : (emitRx r s).trace = s.trace := rfl
@[simp] theorem emitRx_rxFeed (r : Reply) : (emitRx r s).rxFeed = s.rxFeed := rfl
@[simp] theorem emitRx_txFeed (r : Reply) : (emitRx r s).txFeed = s.txFeed := rfl
@[simp] theorem emitRx_txFrame (r : Reply) : (emitRx r s).txFrame = s.txFrame := rfl
@[simp] theorem emitRx_hostMem (r : Reply) : (emitRx r s).hostMem = s.hostMem := rfl
@[simp] theorem emitRx_draws (r : Reply) : (emitRx r s).draws = s.draws := rfl

/-! ### tookWrite -/

@[simp] theorem tookWrite_cfg : (tookWrite s).cfg = s.cfg := rfl
@[simp] theorem tookWrite_rx : (tookWrite s).rx = s.rx := rfl
@[simp] theorem tookWrite_session : (tookWrite s).session = s.session := rfl
@[simp] theorem tookWrite_txn : (tookWrite s).txn = s.txn := rfl
@[simp] theorem tookWrite_ctl : (tookWrite s).ctl = s.ctl := rfl
@[simp] theorem tookWrite_port : (tookWrite s).port = s.port := rfl
@[simp] theorem tookWrite_replies : (tookWrite s).replies = s.replies := rfl
@[simp] theorem tookWrite_diag : (tookWrite s).diag = s.diag := rfl
@[simp] theorem tookWrite_trace : (tookWrite s).trace = s.trace := rfl
@[simp] theorem tookWrite_rxFeed : (tookWrite s).rxFeed = s.rxFeed := rfl
@[simp] theorem tookWrite_txFeed : (tookWrite s).txFeed = s.txFeed.tail := rfl
@[simp] theorem tookWrite_txFrame : (tookWrite s).txFrame = s.txFrame := rfl
@[simp] theorem tookWrite_hostMem : (tookWrite s).hostMem = s.hostMem := rfl
@[simp] theorem tookWrite_draws : (tookWrite s).draws = if s.txFeed = [] then s.draws + 1 else s.draws := rfl

/-! ### tookAnswer -/

variable (a : ReadAnswer) (rest : List ReadAnswer)

@[simp] theorem tookAnswer_cfg : (tookAnswer a rest s).cfg = s.cfg := rfl
@[simp] theorem tookAnswer_rx : (tookAnswer a rest s).rx = s.rx := rfl
@[simp] theorem tookAnswer_session : (tookAnswer a rest s).session = s.session := rfl
@[simp] theorem tookAnswer_txn : (tookAnswer a rest s).txn = s.txn := rfl
@[simp] theorem tookAnswer_ctl : (tookAnswer a rest s).ctl = s.ctl := rfl
@[simp] theorem tookAnswer_port : (tookAnswer a rest s).port = s.port := rfl
@[simp] theorem tookAnswer_replies : (tookAnswer a rest s).replies = s.replies := rfl
@[simp] theorem tookAnswer_diag : (tookAnswer a rest s).diag = s.diag := rfl
@[simp] theorem tookAnswer_trace : (tookAnswer a rest s).trace = s.trace ++ [.didRead (clipAnswer a)] := rfl
@[simp] theorem tookAnswer_rxFeed : (tookAnswer a rest s).rxFeed = rest := rfl
@[simp] theorem tookAnswer_txFeed : (tookAnswer a rest s).txFeed = s.txFeed := rfl
@[simp] theorem tookAnswer_txFrame : (tookAnswer a rest s).txFrame = s.txFrame := rfl
@[simp] theorem tookAnswer_hostMem : (tookAnswer a rest s).hostMem = s.hostMem := rfl
@[simp] theorem tookAnswer_draws : (tookAnswer a rest s).draws = s.draws := rfl

/-! ### Updates of the receiver -/

variable (r : Receiver)

@[simp] theorem accReset_st : (accReset r).st = r.st := rfl
@[simp] theorem accReset_sf : (accReset r).sf = r.sf := rfl
@[simp] theorem accReset_slot : (accReset r).slot = r.slot := rfl
@[simp] theorem accReset_acc : (accReset r).acc = r.acc := rfl
@[simp] theorem accReset_n : (accReset r).n = 0 := rfl
@[simp] theorem accReset_pfx : (accReset r).pfx = 0 := rfl
@[simp] theorem accReset_exp : (accReset r).exp = .unknown := rfl
@[simp] theorem accReset_ovf : (accReset r).ovf = false := rfl
@[simp] theorem accReset_rxbuf : (accReset r).rxbuf = r.rxbuf := rfl
@[simp] theorem accReset_rd : (accReset r).rd = r.rd := rfl
@[simp] theorem accReset_lim : (accReset r).lim = r.lim := rfl
@[simp] theorem accReset_retries : (accReset r).retries = 0 := rfl
@[simp] theorem advance_st : (advance r).st = r.st := rfl
@[simp] theorem advance_sf : (advance r).sf = r.sf >>> 4 := rfl
@[simp] theorem advance_slot : (advance r).slot = r.slot + 1 := rfl
@[simp] theorem advance_acc : (advance r).acc = r.acc := rfl
@[simp] theorem advance_n : (advance r).n = r.n := rfl
@[simp] theorem advance_pfx : (advance r).pfx = r.pfx := rfl
@[simp] theorem advance_exp : (advance r).exp = r.exp := rfl
@[simp] theorem advance_ovf : (advance r).ovf = r.ovf := rfl
@[simp] theorem advance_rxbuf : (advance r).rxbuf = r.rxbuf := rfl
@[simp] theorem advance_rd : (advance r).rd = r.rd := rfl
@[simp] theorem advance_lim : (advance r).lim = r.lim := rfl
@[simp] theorem advance_retries : (advance r).retries = r.retries := rfl
@[simp] theorem resetReceiver_st : (resetReceiver r).st = .awaitingStatus := rfl
@[simp] theorem resetReceiver_sf : (resetReceiver r).sf = 0 := rfl
@[simp] theorem resetReceiver_slot : (resetReceiver r).slot = 0 := rfl
@[simp] theorem resetReceiver_acc : (resetReceiver r).acc = r.acc := rfl
@[simp] theorem resetReceiver_n : (resetReceiver r).n = 0 := rfl
@[simp] theorem resetReceiver_pfx : (resetReceiver r).pfx = 0 := rfl
@[simp] theorem resetReceiver_exp : (resetReceiver r).exp = .unknown := rfl
@[simp] theorem resetReceiver_ovf : (resetReceiver r).ovf = false := rfl
@[simp] theorem resetReceiver_rxbuf : (resetReceiver r).rxbuf = r.rxbuf := rfl
@[simp] theorem resetReceiver_rd : (resetReceiver r).rd = 0 := rfl
@[simp] theorem resetReceiver_lim : (resetReceiver r).lim = 0 := rfl
@[simp] theorem resetReceiver_retries : (resetReceiver r).retries = 0 := rfl
@[simp] theorem emptyCursor_st : (emptyCursor r).st = r.st := rfl
@[simp] theorem emptyCursor_sf : (emptyCursor r).sf = r.sf := rfl
@[simp] theorem emptyCursor_slot : (emptyCursor r).slot = r.slot := rfl
@[simp] theorem emptyCursor_acc : (emptyCursor r).acc = r.acc := rfl
@[simp] theorem emptyCursor_n : (emptyCursor r).n = r.n := rfl
@[simp] theorem emptyCursor_pfx : (emptyCursor r).pfx = r.pfx := rfl
@[simp] theorem emptyCursor_exp : (emptyCursor r).exp = r.exp := rfl
@[simp] theorem emptyCursor_ovf : (emptyCursor r).ovf = r.ovf := rfl
@[simp] theorem emptyCursor_rxbuf : (emptyCursor r).rxbuf = r.rxbuf := rfl
@[simp] theorem emptyCursor_rd : (emptyCursor r).rd = 0 := rfl
@[simp] theorem emptyCursor_lim : (emptyCursor r).lim = 0 := rfl
@[simp] theorem emptyCursor_retries : (emptyCursor r).retries = r.retries := rfl
@[simp] theorem loadBuffer_st (bs : List Byte) : (loadBuffer bs r).st = r.st := rfl
@[simp] theorem loadBuffer_sf (bs : List Byte) : (loadBuffer bs r).sf = r.sf := rfl
@[simp] theorem loadBuffer_slot (bs : List Byte) : (loadBuffer bs r).slot = r.slot := rfl
@[simp] theorem loadBuffer_acc (bs : List Byte) : (loadBuffer bs r).acc = r.acc := rfl
@[simp] theorem loadBuffer_n (bs : List Byte) : (loadBuffer bs r).n = r.n := rfl
@[simp] theorem loadBuffer_pfx (bs : List Byte) : (loadBuffer bs r).pfx = r.pfx := rfl
@[simp] theorem loadBuffer_exp (bs : List Byte) : (loadBuffer bs r).exp = r.exp := rfl
@[simp] theorem loadBuffer_ovf (bs : List Byte) : (loadBuffer bs r).ovf = r.ovf := rfl
@[simp] theorem loadBuffer_rxbuf (bs : List Byte) : (loadBuffer bs r).rxbuf = Memory.store r.rxbuf 0 bs := rfl
@[simp] theorem loadBuffer_rd (bs : List Byte) : (loadBuffer bs r).rd = 0 := rfl
@[simp] theorem loadBuffer_lim (bs : List Byte) : (loadBuffer bs r).lim = bs.length / 4 := rfl
@[simp] theorem loadBuffer_retries (bs : List Byte) : (loadBuffer bs r).retries = 0 := rfl

end Sys2Proof.Machine
end

