-- ==== Sys2Proof/Laws/Ports.lean ====
section
/-! SUPPORT. What the shared operations over the transport ports, the receive cursor and the accumulator can do,
said once for each. -/

namespace Sys2Proof.Machine

/-! ### The transport -/

/-- A TransportRead that returned took the environment's next draw and logged it; nothing else changed. -/
theorem transportRead_some {s t : State} {a : ReadAnswer} (h : transportRead s = some (a, t)) :
    ∃ d rest, s.rxFeed = d :: rest ∧ a = clipAnswer d ∧ t = tookAnswer d rest s := by
  unfold transportRead at h
  split at h
  · cases h
  · rename_i d rest e
    cases h
    exact ⟨d, rest, e, rfl, rfl⟩

/-- A TransportRead has not returned exactly when no draw is left. -/
theorem transportRead_none {s : State} : transportRead s = none ↔ s.rxFeed = [] := by
  unfold transportRead
  split <;> simp_all

/-- The next write's answer is the listed draw, if there is one. -/
theorem nextWrite_cons {s : State} {a : WriteAnswer} {rest : List WriteAnswer} (h : s.txFeed = a :: rest) :
    nextWrite s = a ∧ tookWrite s = { s with txFeed := rest } := by
  simp [nextWrite, tookWrite, h]

/-- Without a listed draw the answer is a free value, and the draw is counted. -/
theorem nextWrite_nil {s : State} (h : s.txFeed = []) :
    nextWrite s = writeAnswerOf (Config.writeError s.draws) ∧ tookWrite s = { s with draws := s.draws + 1 } := by
  cases s
  simp_all [nextWrite, tookWrite]

/-- A TransportWrite always returns: it takes the environment's next draw and logs the bytes that went out;
nothing else changes. -/
theorem transportWrite_cases (bs : List Byte) (s : State) :
    (nextWrite s = .ok ∧ transportWrite bs s = (true, (tookWrite s).addEvent (.wrote bs))) ∨
      ∃ k, nextWrite s = .tErr k ∧
        transportWrite bs s = (false, (tookWrite s).addEvent (.writeFailed (bs.take k))) := by
  unfold transportWrite
  split
  · rename_i h; exact .inl ⟨h, rfl⟩
  · rename_i k h; exact .inr ⟨k, h, rfl⟩

/-- A TransportRead never brings more than `RX_BUF_BYTES` bytes. -/
theorem answerBytes_clip_length (a : ReadAnswer) : (answerBytes (clipAnswer a)).length ≤ Lit.rxBufBytes := by
  cases a <;> simp [clipAnswer, answerBytes, Lit.rxBufBytes]

/-! ### The accumulator -/

/-- What UpdateExpected can do: one of its three cases, and nothing outside `pfx` and `exp`. -/
theorem updateExpected_cases (w : Word) (r : Receiver) :
    (hdrLen w = .prefixWord ∧ updateExpected w r = { r with pfx := r.pfx + 1 }) ∨
      (∃ hw pay d t, hdrLen w = .header hw pay d t ∧ updateExpected w r = { r with exp := .known (r.pfx + t) }) ∨
      (hdrLen w = .invalid ∧ updateExpected w r = { r with exp := .invalid }) := by
  unfold updateExpected
  split
  · rename_i h; exact .inl ⟨h, rfl⟩
  · rename_i h; exact .inr (.inl ⟨_, _, _, _, h, rfl⟩)
  · rename_i h; exact .inr (.inr ⟨h, rfl⟩)

/-- What Append can do: the word stored at `S.n` and the expected count tracked, or only the overflow flag set. -/
theorem append_cases (cap : Nat) (w : Word) (r : Receiver) :
    (r.n < cap ∧ append cap w r = trackExpected w { r with acc := r.acc.set r.n w, n := r.n + 1 }) ∨
      (cap ≤ r.n ∧ append cap w r = { r with ovf := true }) := by
  unfold append
  split
  · rename_i h; exact .inl ⟨h, rfl⟩
  · rename_i h; exact .inr ⟨by omega, rfl⟩

/-- A header's total is at least its header words. -/
theorem hdrLen_total {w : Word} {hw : HdrWords} {pay d t : Nat} (h : hdrLen w = .header hw pay d t) :
    t = hdrCount hw + pay + d ∧ 3 ≤ t := by
  unfold hdrLen at h
  simp only at h
  split at h
  · cases h
  · split at h
    · cases h
    · cases h
      refine ⟨rfl, ?_⟩
      unfold hdrCount
      split <;> omega

/-- Append leaves the state, the field, the slot, the buffer, the cursor and the retry count. -/
theorem append_frame (cap : Nat) (w : Word) (r : Receiver) :
    (append cap w r).st = r.st ∧ (append cap w r).sf = r.sf ∧ (append cap w r).slot = r.slot ∧
      (append cap w r).rxbuf = r.rxbuf ∧ (append cap w r).rd = r.rd ∧ (append cap w r).lim = r.lim ∧
      (append cap w r).retries = r.retries := by
  rcases append_cases cap w r with ⟨-, e⟩ | ⟨-, e⟩
  · rw [e]
    unfold trackExpected
    split
    · rcases updateExpected_cases w { r with acc := r.acc.set r.n w, n := r.n + 1 } with
        ⟨-, e⟩ | ⟨_, _, _, _, -, e⟩ | ⟨-, e⟩ <;> simp [e]
    · simp
  · simp [e]

/-! ### The receive cursor -/

/-- What an operation of the receiver leaves alone. -/
abbrev RxFrame (s t : State) : Prop :=
  t.cfg = s.cfg ∧ t.session = s.session ∧ t.txn = s.txn ∧ t.port = s.port ∧ t.txFeed = s.txFeed ∧
    t.txFrame = s.txFrame ∧ t.hostMem = s.hostMem ∧ t.draws = s.draws

theorem RxFrame.rfl' (s : State) : RxFrame s s := ⟨rfl, rfl, rfl, rfl, rfl, rfl, rfl, rfl⟩

theorem RxFrame.trans' {s t u : State} (h : RxFrame s t) (k : RxFrame t u) : RxFrame s u := by
  obtain ⟨h1, h2, h3, h4, h5, h6, h7, h8⟩ := h
  obtain ⟨k1, k2, k3, k4, k5, k6, k7, k8⟩ := k
  exact ⟨k1.trans h1, k2.trans h2, k3.trans h3, k4.trans h4, k5.trans h5, k6.trans h6, k7.trans h7, k8.trans h8⟩

/-- What EmptyRead can do: NoData, Corrupt(RetryExhausted), or one more retry. -/
theorem emptyRead_cases (s : State) :
    (noDataDue s.cfg s.rx = true ∧ emptyRead s = (true, emitRx .noData s)) ∨
      (noDataDue s.cfg s.rx = false ∧ retriesSpent s.cfg s.rx = true ∧
        emptyRead s = (true, emitRx (.corrupt .retryExhausted (accWords s.rx))
          (s.setRx { accReset s.rx with st := .awaitingStatus }))) ∨
      (noDataDue s.cfg s.rx = false ∧ retriesSpent s.cfg s.rx = false ∧
        emptyRead s = (false, s.setRx { s.rx with retries := s.rx.retries + 1 })) := by
  unfold emptyRead
  split
  · rename_i h; exact .inl ⟨h, rfl⟩
  · rename_i h
    split
    · rename_i k; exact .inr (.inl ⟨by simpa using h, k, rfl⟩)
    · rename_i k; exact .inr (.inr ⟨by simpa using h, by simpa using k, rfl⟩)

theorem emptyRead_frame (s : State) : RxFrame s (emptyRead s).2 := by
  rcases emptyRead_cases s with ⟨-, e⟩ | ⟨-, -, e⟩ | ⟨-, -, e⟩ <;> rw [e] <;> simp [RxFrame]

/-- The state a fetch leads to. -/
def Fetch.state : Fetch → State
  | .word _ s => s
  | .ended s => s
  | .waits s => s

theorem fetchRead_frame (feed : List ReadAnswer) (s : State) : RxFrame s (fetchRead feed s).state := by
  induction feed generalizing s with
  | nil => exact RxFrame.rfl' s
  | cons a rest ih =>
    unfold fetchRead
    simp only
    split
    · simp [takeWord, Fetch.state, RxFrame]
    · have hf := emptyRead_frame ((tookAnswer a rest s).setRx (emptyCursor (tookAnswer a rest s).rx))
      have h0 : RxFrame s ((tookAnswer a rest s).setRx (emptyCursor (tookAnswer a rest s).rx)) := by
        simp [RxFrame]
      split
      · rename_i s2 e
        rw [e] at hf
        exact h0.trans' hf
      · rename_i s2 e
        rw [e] at hf
        exact (h0.trans' hf).trans' (ih s2)

/-- A fetch leaves everything outside the receiver and its port alone. -/
theorem fetchWord_frame (s : State) : RxFrame s (fetchWord s).state := by
  unfold fetchWord
  split
  · exact fetchRead_frame _ s
  · simp [takeWord, Fetch.state, RxFrame]

/-- A fetch with a word in the buffer takes it and moves the cursor by one (R161, R360). -/
theorem fetchWord_buffered {s : State} (h : s.rx.rd ≠ s.rx.lim) :
    fetchWord s = .word (bufWord s.rx s.rx.rd) (s.setRx { s.rx with rd := s.rx.rd + 1 }) := by
  unfold fetchWord takeWord
  rw [if_neg h]

/-- What a fetch that waits has done, exactly: nothing without a draw; else it has taken every draw, each an
empty read, emptied the cursor and counted a retry for each (R161, R173, R358). -/
theorem fetchRead_waits (feed : List ReadAnswer) (s t : State) (hs : s.rxFeed = feed)
    (h : fetchRead feed s = .waits t) :
    t = { s with
      rx := if feed = [] then s.rx else { s.rx with rd := 0, lim := 0, retries := s.rx.retries + feed.length }
      rxFeed := [], trace := s.trace ++ feed.map fun a => .didRead (clipAnswer a) } := by
  induction feed generalizing s with
  | nil =>
    cases h
    cases t
    simp_all
  | cons a rest ih =>
    unfold fetchRead at h
    simp only at h
    split at h
    · simp [takeWord] at h
    · split at h
      · cases h
      · rename_i s2 e
        rcases emptyRead_cases ((tookAnswer a rest s).setRx (emptyCursor (tookAnswer a rest s).rx)) with
          ⟨-, e'⟩ | ⟨-, -, e'⟩ | ⟨-, -, e'⟩ <;> rw [e'] at e <;> cases e
        rw [ih _ (by simp) h]
        cases rest <;> simp [State.setRx, tookAnswer, emptyCursor, Nat.add_assoc, Nat.add_comm]

/-- A fetch that waits had an empty cursor, and has done what `fetchRead_waits` says. -/
theorem fetchWord_waits {s t : State} (h : fetchWord s = .waits t) :
    s.rx.rd = s.rx.lim ∧ t = { s with
      rx := if s.rxFeed = [] then s.rx
        else { s.rx with rd := 0, lim := 0, retries := s.rx.retries + s.rxFeed.length }
      rxFeed := [], trace := s.trace ++ s.rxFeed.map fun a => .didRead (clipAnswer a) } := by
  unfold fetchWord at h
  split at h
  · rename_i hc
    exact ⟨hc, fetchRead_waits _ _ _ rfl h⟩
  · simp [takeWord] at h

/-! ### The step rules of RX_DECODE -/

theorem takeStatus_frame (v : Word) (s : State) : RxFrame s (takeStatus v s) := by
  unfold takeStatus
  split
  · exact RxFrame.rfl' s
  · split <;> simp [RxFrame]

theorem consumeSlot_frame (c : Nibble) (s : State) : RxFrame s (consumeSlot c s).state := by
  unfold consumeSlot
  split
  · simp [Tick.state, endGroup, RxFrame]
  · have hf := fetchWord_frame s
    split <;> rename_i e <;> rw [e] at hf
    · refine hf.trans' ?_
      simp [Tick.state, Fetch.state, RxFrame]
    · exact hf
    · exact hf

/-- One turn of RX_DECODE leaves everything outside the receiver and its port alone. -/
theorem rxTick_frame (s : State) : RxFrame s (rxTick s).state := by
  unfold rxTick
  split
  · unfold stepAwait
    have hf := fetchWord_frame s
    split <;> rename_i e <;> rw [e] at hf
    · exact hf.trans' (takeStatus_frame _ _)
    · exact hf
    · exact hf
  · exact consumeSlot_frame _ s
  · exact consumeSlot_frame _ s
  · simp [Tick.state, stepComplete, RxFrame]

end Sys2Proof.Machine
end

