-- ==== Sys2Proof/Laws/Register.lean ====
section
/-! SUPPORT. What the shared operations of the register transaction, of the transmit path and of running an
operation can do, said once for each. -/

namespace Sys2Proof.Machine

/-! ### The places of a response -/

/-- Placing a response changes output bytes and matched flags only. -/
theorem place_frame (a : Half) (dA dA1 : Byte) (t : Txn) :
    place a dA dA1 t = { t with out := (place a dA dA1 t).out, got := (place a dA dA1 t).got } := by
  unfold place putByte
  simp only
  split
  · rfl
  · split <;> split <;> rfl

/-- Placing a response keeps the number of output bytes and of matched flags. -/
theorem place_length (a : Half) (dA dA1 : Byte) (t : Txn) :
    (place a dA dA1 t).out.length = t.out.length ∧ (place a dA dA1 t).got.length = t.got.length := by
  unfold place putByte
  simp only
  split
  · simp
  · split <;> split <;> simp

/-! ### Dispatches of a transaction -/

/-- What issuing a record can do: it fits the batch; or the batch is written and the record starts the next;
or the write fails and the call ends. -/
theorem issueRecord_cases (r : Rec) (s : State) :
    (s.txn.batch.length + 8 ≤ s.cfg.txBatchBytes ∧ issueRecord r s = putRecord r s) ∨
      (s.cfg.txBatchBytes < s.txn.batch.length + 8 ∧
        ((∃ s1, transportWrite s.txn.batch s = (true, s1) ∧
            issueRecord r s = putRecord r (s1.setTxn { s1.txn with batch := [] })) ∨
          ∃ s1, transportWrite s.txn.batch s = (false, s1) ∧
            issueRecord r s = finishTxn .transportError s1)) := by
  unfold issueRecord
  split
  · rename_i h
    refine .inr ⟨h, ?_⟩
    split <;> rename_i e
    · exact .inl ⟨_, e, rfl⟩
    · exact .inr ⟨_, e, rfl⟩
  · rename_i h; exact .inl ⟨by omega, rfl⟩

/-- What writing the last batch can do. -/
theorem flushBatch_cases (s : State) :
    (s.txn.batch = [] ∧ flushBatch s = afterIssue s) ∨
      (s.txn.batch ≠ [] ∧
        ((∃ s1, transportWrite s.txn.batch s = (true, s1) ∧ flushBatch s = afterIssue s1) ∨
          ∃ s1, transportWrite s.txn.batch s = (false, s1) ∧ flushBatch s = finishTxn .transportError s1)) := by
  unfold flushBatch
  split
  · rename_i h; exact .inl ⟨h, rfl⟩
  · rename_i h
    refine .inr ⟨h, ?_⟩
    split <;> rename_i e
    · exact .inl ⟨_, e, rfl⟩
    · exact .inr ⟨_, e, rfl⟩

/-- What a harvest read can do. -/
theorem harvestRead_cases (s : State) :
    (s.rxFeed = [] ∧ harvestRead s = .waits s) ∨
      (∃ d rest, s.rxFeed = d :: rest ∧ clipAnswer d = .tErr ∧
        harvestRead s = .go (finishTxn .transportError (tookAnswer d rest s))) ∨
      ∃ d rest bs, s.rxFeed = d :: rest ∧ clipAnswer d = .bytes bs ∧
        harvestRead s = .go ((tookAnswer d rest s).setTxn { s.txn with
          k := s.txn.k + 1, buf := bs, pend := scan s.cfg.frameOrder s.txn.ch bs }) := by
  unfold harvestRead transportRead
  split <;> rename_i e
  · split at e
    · rename_i h; exact .inl ⟨h, rfl⟩
    · cases e
  · split at e
    · cases e
    · rename_i d rest h
      injection e with e; injection e with e1 e2; subst e2
      exact .inr (.inl ⟨d, rest, h, e1, rfl⟩)
  · split at e
    · cases e
    · rename_i d rest h
      injection e with e; injection e with e1 e2; subst e2
      exact .inr (.inr ⟨d, rest, _, h, e1, rfl⟩)

/-- What one turn of the harvest can do. -/
theorem harvestTick_cases (s : State) :
    (∃ q rest, s.txn.pend = q :: rest ∧
        harvestTick s = .go (takeResponse (respAddr q) (byteOf q 2) (byteOf q 3) s)) ∨
      (s.txn.pend = [] ∧ harvestGoesOn s.cfg s.txn = true ∧ harvestTick s = harvestRead s) ∨
      (s.txn.pend = [] ∧ harvestGoesOn s.cfg s.txn = false ∧
        harvestTick s = .go (finishTxn (harvestResult s.txn) s)) := by
  unfold harvestTick
  split
  · rename_i q rest e; exact .inl ⟨q, rest, e, rfl⟩
  · rename_i e
    split
    · rename_i h; exact .inr (.inl ⟨e, h, rfl⟩)
    · rename_i h; exact .inr (.inr ⟨e, by simpa using h, rfl⟩)

/-- What the argument checks can do. -/
theorem checkOperands_cases (s : State) :
    ((regionLegal s.txn.region && channelLegal s.txn.ch) = false ∧
        checkOperands s = finishTxn .badOperand s) ∨
      (regionLegal s.txn.region = true ∧ channelLegal s.txn.ch = true ∧
        Lit.regSpaceBytes < s.txn.addr + s.txn.cnt ∧ checkOperands s = finishTxn .rangeError s) ∨
      (regionLegal s.txn.region = true ∧ channelLegal s.txn.ch = true ∧
        s.txn.addr + s.txn.cnt ≤ Lit.regSpaceBytes ∧ s.txn.cnt = 0 ∧ checkOperands s = finishTxn .ok s) ∨
      (regionLegal s.txn.region = true ∧ channelLegal s.txn.ch = true ∧
        s.txn.addr + s.txn.cnt ≤ Lit.regSpaceBytes ∧ 0 < s.txn.cnt ∧
        checkOperands s = s.setTxn { s.txn with
          phase := .issue, recs := txnRecs s.txn, put := 0, batch := []
          out := if s.txn.isWrite then [] else List.replicate s.txn.cnt 0
          got := if s.txn.isWrite then [] else List.replicate s.txn.cnt false }) := by
  unfold checkOperands
  simp only
  split
  · rename_i h; exact .inl ⟨by rw [Bool.and_eq_false_iff]; simpa using h, rfl⟩
  · rename_i h
    have h2 : regionLegal s.txn.region = true ∧ channelLegal s.txn.ch = true := by
      simpa [Bool.or_eq_true] using h
    split
    · rename_i k; exact .inr (.inl ⟨h2.1, h2.2, k, rfl⟩)
    · rename_i k
      split
      · rename_i z; exact .inr (.inr (.inl ⟨h2.1, h2.2, by omega, z, rfl⟩))
      · rename_i z; exact .inr (.inr (.inr ⟨h2.1, h2.2, by omega, by omega, rfl⟩))

/-! ### What the register path and the transmit path leave alone -/

/-- What a register transaction or a TLP_SEND in progress leaves alone. -/
abbrev TxFrame (s t : State) : Prop :=
  t.cfg = s.cfg ∧ t.rx = s.rx ∧ t.port = s.port ∧ t.diag = s.diag ∧ t.hostMem = s.hostMem

theorem TxFrame.trans' {s t u : State} (h : TxFrame s t) (k : TxFrame t u) : TxFrame s u := by
  obtain ⟨h1, h2, h3, h4, h5⟩ := h
  obtain ⟨k1, k2, k3, k4, k5⟩ := k
  exact ⟨k1.trans h1, k2.trans h2, k3.trans h3, k4.trans h4, k5.trans h5⟩

theorem transportWrite_frame (bs : List Byte) (s : State) :
    TxFrame s (transportWrite bs s).2 ∧ (transportWrite bs s).2.txn = s.txn := by
  rcases transportWrite_cases bs s with ⟨-, e⟩ | ⟨_, -, e⟩ <;> rw [e] <;> simp [TxFrame]

theorem issueRecord_frame (r : Rec) (s : State) : TxFrame s (issueRecord r s) := by
  have hf := (transportWrite_frame s.txn.batch s).1
  rcases issueRecord_cases r s with ⟨-, e⟩ | ⟨-, ⟨s1, hw, e⟩ | ⟨s1, hw, e⟩⟩ <;> rw [e]
  · simp [putRecord, TxFrame]
  · rw [hw] at hf; exact hf.trans' (by simp [putRecord, TxFrame])
  · rw [hw] at hf; exact hf.trans' (by simp [finishTxn, TxFrame])

theorem afterIssue_frame (s : State) : TxFrame s (afterIssue s) := by
  unfold afterIssue
  split <;> simp [finishTxn, TxFrame]

theorem flushBatch_frame (s : State) : TxFrame s (flushBatch s) := by
  have hf := (transportWrite_frame s.txn.batch s).1
  rcases flushBatch_cases s with ⟨-, e⟩ | ⟨-, ⟨s1, hw, e⟩ | ⟨s1, hw, e⟩⟩ <;> rw [e]
  · exact afterIssue_frame s
  · rw [hw] at hf; exact hf.trans' (afterIssue_frame s1)
  · rw [hw] at hf; exact hf.trans' (by simp [finishTxn, TxFrame])

theorem harvestTick_frame (s : State) : TxFrame s (harvestTick s).state := by
  rcases harvestTick_cases s with ⟨_, _, -, e⟩ | ⟨-, -, e⟩ | ⟨-, -, e⟩ <;> rw [e]
  · simp [Tick.state, takeResponse, TxFrame]
  · rcases harvestRead_cases s with ⟨-, e⟩ | ⟨_, _, -, -, e⟩ | ⟨_, _, _, -, -, e⟩ <;> rw [e] <;>
      simp [Tick.state, finishTxn, TxFrame]
  · simp [Tick.state, finishTxn, TxFrame]

theorem finishPhase_frame (s : State) : TxFrame s (finishPhase s) := by
  unfold finishPhase
  simp only
  split
  · simp [dropTxn, TxFrame]
  · split <;> simp [dropTxn, startWrite, startTxn, TxFrame]
  · split
    · simp [endSession, dropTxn, TxFrame]
    · split <;> simp [endSession, dropTxn, startRead, startTxn, TxFrame]
  · split <;> simp [endSession, dropTxn, startWrite, startTxn, TxFrame]
  · split <;> simp [endSession, dropTxn, TxFrame]

/-- One dispatch of a register transaction leaves the receiver and the destination buffer alone. -/
theorem regTick_frame (s : State) : TxFrame s (regTick s).state := by
  unfold regTick
  split
  · rcases checkOperands_cases s with ⟨-, e⟩ | ⟨-, -, -, e⟩ | ⟨-, -, -, -, e⟩ | ⟨-, -, -, -, e⟩ <;>
      simp [Tick.state, e, finishTxn, TxFrame]
  · split
    · exact issueRecord_frame _ s
    · exact flushBatch_frame s
  · simp [Tick.state, responseDelay, delay, TxFrame]
  · exact harvestTick_frame s
  · exact finishPhase_frame s

/-- What sending the finished frame can do. -/
theorem sendFrame_cases (s : State) :
    (∃ s1, transportWrite s.txFrame s = (true, s1) ∧ sendFrame s = deliver (.sent .ok) (s1.setFrame [])) ∨
      ∃ s1, transportWrite s.txFrame s = (false, s1) ∧
        sendFrame s = deliver (.sent .transportError) (s1.setFrame []) := by
  unfold sendFrame
  split <;> rename_i e
  · exact .inl ⟨_, e, rfl⟩
  · exact .inr ⟨_, e, rfl⟩

/-! ### Waiting -/

/-- A register transaction waits only for a read of its harvest, and the wait changes nothing (R358). -/
theorem regTick_waits {s t : State} (h : regTick s = .waits t) :
    t = s ∧ s.rxFeed = [] ∧ s.txn.phase = .harvest := by
  unfold regTick at h
  split at h
  · cases h
  · split at h <;> cases h
  · cases h
  · rename_i hp
    rcases harvestTick_cases s with ⟨_, _, -, e⟩ | ⟨-, -, e⟩ | ⟨-, -, e⟩ <;> rw [e] at h
    · cases h
    · rcases harvestRead_cases s with ⟨hf, e⟩ | ⟨_, _, -, -, e⟩ | ⟨_, _, _, -, -, e⟩ <;> rw [e] at h
      · cases h; exact ⟨rfl, hf, hp⟩
      · cases h
      · cases h
    · cases h
  · cases h

/-! ### Running an operation -/

@[simp] theorem run_zero (s : State) : run 0 s = s := rfl

theorem run_idle (n : Nat) {s : State} (h : s.ctl = .idle) : run n s = s := by
  cases n
  · rfl
  · simp [run, h]

theorem run_go (n : Nat) {s t : State} (h : s.ctl ≠ .idle) (e : tick s = .go t) : run (n + 1) s = run n t := by
  simp [run, h, e]

theorem run_waits (n : Nat) {s t : State} (h : s.ctl ≠ .idle) (e : tick s = .waits t) : run (n + 1) s = t := by
  simp [run, h, e]

/-- A property that every dispatch of an operation in progress keeps holds of the state `run` leads to. -/
theorem run_induct (P : State → Prop) (hstep : ∀ s, s.ctl ≠ .idle → P s → P (tick s).state) (n : Nat) (s : State)
    (h : P s) : P (run n s) := by
  induction n generalizing s with
  | zero => exact h
  | succ n ih =>
    unfold run
    split
    · exact h
    · rename_i hc
      have := hstep s hc h
      split
      · rename_i e; rw [e] at this; exact this
      · rename_i e; rw [e] at this; exact ih _ this

end Sys2Proof.Machine
end

