-- ==== Sys2Proof/Tests/Slice0.lean ====
section
/-! SUPPORT. Tests: small theorems on fixed values, each with the vector of spec/95_test_vectors.md it comes
from, or computed by hand from the rule named; and for each statement with hypotheses a state that meets them. -/

namespace Sys2Proof.Tests
open Sys2Proof.Machine

-- One theorem at a time: each one's kernel evaluation would otherwise hold a thread of its own.
set_option Elab.async false

/-! ### Helpers -/

/-- The CfgWr0 of spec/95_test_vectors.md. -/
def cw : List Word := [0x44000001, 0x0100050F, 0x02000200, 0x41000000]
/-- `GRP1` of spec/95_test_vectors.md. -/
def grp1 : List Word := [0xEFFF4000] ++ cw ++ [0, 0, 0]
/-- A read that delivers these words. -/
def rd (ws : List Word) : ReadAnswer := .bytes (bytesOfWords ws)
/-- The reset state with these reads and these writes to come. -/
def fed (rs : List ReadAnswer) (ws : List WriteAnswer) : State := { State.reset with rxFeed := rs, txFeed := ws }
/-- The reset state inside RX_DECODE with this receiver and these reads to come. -/
def inDecode (r : Receiver) (rs : List ReadAnswer) : State :=
  { State.reset with rx := r, ctl := .rx false, rxFeed := rs }
/-- The reset receiver. -/
def r0 : Receiver := Receiver.reset 260
/-- The outcomes returned by an outcome of `exec` or `step`. -/
def repliesOf (o : Host.Outcome State Fault Refusal) : List Reply :=
  match o with
  | .next s => s.replies
  | _ => []
/-- The state an outcome leads to. -/
def nextOf (o : Host.Outcome State Fault Refusal) : State :=
  match o with
  | .next s => s
  | _ => State.reset
/-- The bytes sent by an outcome of `exec`. -/
def sentBy (o : Host.Outcome State Fault Refusal) : List Byte := txStream (nextOf o)
/-- A read of one group with this status word and these first data words. -/
def group (v : Word) (ws : List Word) : ReadAnswer := rd ([v] ++ ws ++ List.replicate (7 - ws.length) 0)

/-! ### Well-formedness: one ill-formed term for each check -/

theorem test_wf_region : wellFormed (.regRd 0b01 4 3) = false ∧ wellFormed (.regWr 1 0 0xFF 0 0b01 4 3) = false := by
  decide
theorem test_wf_channel : wellFormed (.regRd 0 4 0) = false ∧ wellFormed (.regWr 1 0 0xFF 0 0 4 0) = false := by
  decide
theorem test_wf_enable_low : wellFormed (.regWr 0 0 0x0F 0xFF 0 4 3) = false := by decide
theorem test_wf_enable_data : wellFormed (.regWr 1 0 0x00 0xFF 0 4 3) = false := by decide
theorem test_wf_enable_high : wellFormed (.regWr 0 1 0xFF 0x00 0 4 3) = false := by decide
theorem test_wf_none_enabled : wellFormed (.regWr 0 0 0 0 0 4 3) = false := by decide
theorem test_wf_good : wellFormed (.regRd 0 4 3) = true ∧ wellFormed (.regWr 0 0x2F 0 0xFF 2 12 3) = true := by
  decide

/-! ### Decoding: words written out from the tables of spec/30_encoding.md -/

/-- R150: the host command codes, with operands as typed values. -/
theorem test_decode_host_receiver :
    decode ⟨.hostCmd, [0x01]⟩ = .ok .rxDecode ∧ decode ⟨.hostCmd, [0x02]⟩ = .ok .rxDiscard ∧
      decode ⟨.hostCmd, [0x03]⟩ = .ok .rxReset ∧ decode ⟨.hostCmd, [0x30]⟩ = .ok .sessionInit := by decide +kernel
theorem test_decode_host_codec :
    decode ⟨.hostCmd, [0x10, 0x44000001]⟩ = .ok (.tlpHdrlen 0x44000001) ∧
      decode ⟨.hostCmd, [0x11, 0x80000000, 7]⟩ = .ok (.tlpDecode [0x80000000, 7]) ∧
      decode ⟨.hostCmd, [0x12, 1, 2, 3, 4, 1, 16]⟩ = .ok (.tlpEncode ⟨1, 2, 3, 4, .dw4⟩ 16) ∧
      decode ⟨.hostCmd, [0x13, 1, 2, 3, 0, 0, 9]⟩ = .ok (.tlpSend ⟨1, 2, 3, 0, .dw3⟩ [9]) ∧
      decode ⟨.hostCmd, [0x14, 1, 2, 0xFFC, 0, 0]⟩ = .ok (.cfgRegoff ⟨1, 2, 0xFFC, 0, .dw3⟩) := by decide +kernel
theorem test_decode_host_register :
    decode ⟨.hostCmd, [0x20, 0x0008, 1, 0x0000, 3]⟩ = .ok (.regRead 8 1 0 3) ∧
      decode ⟨.hostCmd, [0x21, 0x0019, 0x8000, 3, 0x2F]⟩ = .ok (.regWrite 0x19 [0x2F] 0x8000 3) := by decide +kernel
/-- R103: every nibble falls in its class. -/
theorem test_decode_slots :
    [0x0, 0x8].map (fun n => decode ⟨.slot, [n]⟩) = [.ok (.slotTlpData 0), .ok (.slotTlpData 1)] ∧
      [0x4, 0xC].map (fun n => decode ⟨.slot, [n]⟩) = [.ok (.slotTlpLast 0), .ok (.slotTlpLast 1)] ∧
      [0x1, 0x5, 0x9, 0xD].map (fun n => decode ⟨.slot, [n]⟩) =
        [.ok (.slotNonTlp01 0), .ok (.slotNonTlp01 1), .ok (.slotNonTlp01 2), .ok (.slotNonTlp01 3)] ∧
      [0x2, 0x6, 0xA, 0xE].map (fun n => decode ⟨.slot, [n]⟩) =
        [.ok (.slotNonTlp10 0), .ok (.slotNonTlp10 1), .ok (.slotNonTlp10 2), .ok (.slotNonTlp10 3)] ∧
      [0x3, 0x7, 0xB, 0xF].map (fun n => decode ⟨.slot, [n]⟩) =
        [.ok (.slotNonTlp11 0), .ok (.slotNonTlp11 1), .ok (.slotNonTlp11 2), .ok (.slotNonTlp11 3)] := by
  decide +kernel
/-- R101, R104, R127. -/
theorem test_decode_words :
    decode ⟨.rxStatus, [0xEFFF4000]⟩ = .ok (.status 0xFFF4000) ∧ decode ⟨.rxStatus, [0x55556666]⟩ = .ok .filler ∧
      decode ⟨.rxStatus, [0x12345678]⟩ = .error .notStatus ∧
      decode ⟨.regResp, [0x8018003F]⟩ = .ok (.regresp 0x8018 0x00 0x3F) := by decide +kernel
/-- R125, R126, R128; the records of V-RG-1, V-RG-3 and V-TX-1. -/
theorem test_decode_records :
    decode ⟨.regReq, [0x0000000000081377]⟩ = .ok (.regRd 0 4 3) ∧
      decode ⟨.regReq, [0x002F00FF80182377]⟩ = .ok (.regWr 0x00 0x2F 0x00 0xFF 2 12 3) ∧
      decode ⟨.regReq, [0x0000000000083377]⟩ = .error .notRegReq ∧
      decode ⟨.regReq, [0x0000000000081378]⟩ = .error .notRegReq ∧
      decode ⟨.txTlp, [0x4A00000100000077]⟩ = .ok (.txTlpWord 0x4A000001) ∧
      decode ⟨.txTlp, [0x4200000000000477]⟩ = .ok (.txTlpLast 0x42000000) := by decide +kernel
/-- R111. -/
theorem test_decode_fmt :
    [0x00000001, 0x20000002, 0x40000003, 0x60000004].map (fun n => decode ⟨.tlpFmt, [n]⟩) =
        [.ok (.fmt3dwNodata 1), .ok (.fmt4dwNodata 2), .ok (.fmt3dwData 3), .ok (.fmt4dwData 4)] ∧
      [0x80000005, 0xA0000006, 0xC0000007, 0xFF000008].map (fun n => decode ⟨.tlpFmt, [n]⟩) =
        [.ok (.fmtPrefix 5), .ok (.fmtRsvd101 6), .ok (.fmtRsvd110 7), .ok (.fmtRsvd111 0x1F000008)] := by
  decide +kernel
/-- R112: byte 0 of each type. -/
theorem test_decode_types_requests :
    [0x00, 0x20, 0x01, 0x21, 0x40, 0x60].map (fun b => decode ⟨.tlpType, [b * 2 ^ 24 + 0x8005]⟩) =
        [.ok (.mrd32 0x8005), .ok (.mrd64 0x8005), .ok (.mrdLk32 0x8005), .ok (.mrdLk64 0x8005),
          .ok (.mwr32 0x8005), .ok (.mwr64 0x8005)] ∧
      [0x02, 0x42, 0x04, 0x44, 0x05, 0x45].map (fun b => decode ⟨.tlpType, [b * 2 ^ 24 + 1]⟩) =
        [.ok (.iord 1), .ok (.iowr 1), .ok (.cfgRd0 1), .ok (.cfgWr0 1), .ok (.cfgRd1 1), .ok (.cfgWr1 1)] := by
  decide +kernel
theorem test_decode_types_others :
    [0x0A, 0x4A, 0x0B, 0x4B].map (fun b => decode ⟨.tlpType, [b * 2 ^ 24 + 1]⟩) =
        [.ok (.cpl 1), .ok (.cplD 1), .ok (.cplLk 1), .ok (.cplDLk 1)] ∧
      [0x4C, 0x6C, 0x4D, 0x6D, 0x4E, 0x6E].map (fun b => decode ⟨.tlpType, [b * 2 ^ 24 + 1]⟩) =
        [.ok (.fetchAdd32 1), .ok (.fetchAdd64 1), .ok (.swap32 1), .ok (.swap64 1), .ok (.cas32 1), .ok (.cas64 1)] ∧
      [0x33, 0x77, 0x8F, 0x91, 0x1F].map (fun b => decode ⟨.tlpType, [b * 2 ^ 24 + 1]⟩) =
        [.ok (.msg 0x3000001), .ok (.msgD 0x7000001), .ok (.lprfx 0xF000001), .ok (.eprfx 0x1000001),
          .error .noTypeRow] := by decide +kernel
/-- The opcode table's numbering: a code, a nibble, a 32-bit word, a 64-bit record. -/
theorem test_decode_table_word :
    decodeTableWord 8 0x14 = some (.cfgRegoff ⟨0, 0, 0, 0, .dw3⟩) ∧ decodeTableWord 4 0xC = some (.slotTlpLast 1) ∧
      decodeTableWord 32 0x44000001 = some (.cfgWr0 1) ∧ decodeTableWord 64 0x0000000000081377 = some (.regRd 0 4 3) := by
  decide +kernel

/-! ### The receiver -/

/-- V-DI-1, call 1. -/
theorem test_rx_decode_complete : repliesOf (exec .rxDecode (fed [rd grp1] [])) = [.complete cw] := by decide +kernel
theorem test_rx_decode_state_after :
    let r := (nextOf (exec .rxDecode (fed [rd grp1] []))).rx
    (r.st, r.sf, r.slot, r.n, r.exp, r.rd, r.lim) = (.inRemainder, 0x0000EFFF, 4, 0, .unknown, 5, 8) := by
  decide +kernel
/-- V-DI-4 and its kin: `rx.next` passes an OutOfSync and goes on. -/
theorem test_rx_next : repliesOf (exec .rxNext (fed [rd ([0x12345678] ++ grp1)] [])) = [.outOfSync, .complete cw] := by
  decide +kernel
/-- R177, worked example: `S.rd = 1, S.end = 8`. -/
theorem test_rx_discard :
    (nextOf (exec .rxDiscard { State.reset with rx := { r0 with rd := 1, lim := 8 } })).rx.rd = 8 := by decide +kernel
theorem test_rx_resync :
    (nextOf (exec .rxResync { State.reset with rx := { r0 with rd := 1, lim := 8 } })).rx.rd = 8 := by decide +kernel
/-- R178. -/
theorem test_rx_reset :
    let r := (nextOf (exec .rxReset { State.reset with rx := { r0 with st := .inData, n := 2, rd := 3, lim := 8 } })).rx
    (r.st, r.n, r.rd, r.lim) = (.awaitingStatus, 0, 0, 0) := by decide +kernel
/-- R162. -/
theorem test_status :
    let r := (nextOf (exec (.status 0xFFF4000) State.reset)).rx
    (r.st, r.sf, r.slot) = (.inData, 0xEFFF4000, 0) := by decide +kernel
theorem test_filler : nextOf (exec .filler { State.reset with draws := 5 }) = { State.reset with draws := 5 } := by
  decide +kernel
/-- A receiver before slot `k` of GRP1, in state `st`, the word `q` in the buffer. -/
def atSlot (k : Nat) (st : RxState) (q : Word) : State :=
  inDecode { r0 with
    st := st, slot := k, sf := (0xEFFF4000 : Word) >>> (4 * k), rxbuf := Memory.store [] 0 (bytesBe q), lim := 1 } []
/-- V-DI-1, slot 0. -/
theorem test_slot_data :
    let r := (nextOf (exec (.slotTlpData 0) (atSlot 0 .inData 0x44000001))).rx
    (r.st, r.sf, r.slot, r.n, r.exp, r.rd) = (.inData, 0x0EFFF400, 1, 1, .known 4, 1) := by decide +kernel
/-- R166: in InRemainder the word is discarded. -/
theorem test_slot_data_remainder :
    let r := (nextOf (exec (.slotTlpData 1) (atSlot 0 .inRemainder 0x44000001))).rx
    (r.st, r.slot, r.n, r.exp) = (.inData, 1, 0, .unknown) := by decide +kernel
/-- V-DI-1, slot 3. -/
theorem test_slot_last :
    let r := (nextOf (exec (.slotTlpLast 0) (atSlot 3 .inData 0x41000000))).rx
    (r.st, r.sf, r.slot, r.n) = (.tlpComplete, 0x0000EFFF, 4, 1) := by decide +kernel
/-- V-DI-1, call 2: slot 6 is discarded and leaves the marker. -/
theorem test_slot_non_tlp :
    [exec (.slotNonTlp01 3), exec (.slotNonTlp10 3), exec (.slotNonTlp11 3)].map
        (fun f => let r := (nextOf (f (atSlot 6 .inRemainder 7))).rx; (r.st, r.sf, r.slot, r.n)) =
      List.replicate 3 (.inRemainder, 0xE, 7, 0) := by decide +kernel

/-! ### The codec -/

/-- R221, worked example, and R231 to R236. -/
theorem test_hdrlen :
    repliesOf (exec (.tlpHdrlen 0x44000001) State.reset) = [.hdrLen (.header .dw3 1 0 4)] ∧
      repliesOf (exec (.tlpHdrlen 0x600003FF) State.reset) = [.hdrLen (.header .dw4 1023 0 1027)] := by decide +kernel
theorem test_fmt_rows :
    [exec (.fmt3dwNodata 1), exec (.fmt4dwNodata 0), exec (.fmt3dwData 0), exec (.fmt4dwData 0x3FF),
        exec (.fmtPrefix 0), exec (.fmtRsvd101 0), exec (.fmtRsvd110 0), exec (.fmtRsvd111 0)].map
        (fun f => repliesOf (f State.reset)) =
      [[.hdrLen (.header .dw3 0 0 3)], [.hdrLen (.header .dw4 0 0 4)], [.hdrLen (.header .dw3 1024 0 1027)],
        [.hdrLen (.header .dw4 1023 0 1027)], [.hdrLen .prefixWord], [.hdrLen .invalid], [.hdrLen .invalid],
        [.hdrLen .invalid]] := by decide +kernel
/-- R235, R236: inside RX_DECODE. -/
theorem test_fmt_rows_in_receiver :
    (nextOf (exec (.fmtPrefix 0) (inDecode { r0 with n := 1 } []))).rx.pfx = 1 ∧
      (nextOf (exec (.fmtRsvd110 0) (inDecode { r0 with n := 1 } []))).rx.exp = .invalid := by decide +kernel
/-- R240 to R246: Length 2 with TD. -/
theorem test_type_rows_requests :
    [exec (.mrd32 0x8002), exec (.mrd64 0x8002), exec (.mrdLk32 0x8002), exec (.mrdLk64 0x8002), exec (.mwr32 0x8002),
        exec (.mwr64 0x8002)].map (fun f => repliesOf (f State.reset)) =
      [[.tlpView (.header .dw3 0 1 4) .memReq], [.tlpView (.header .dw4 0 1 5) .memReq],
        [.tlpView (.header .dw3 0 1 4) .memReq], [.tlpView (.header .dw4 0 1 5) .memReq],
        [.tlpView (.header .dw3 2 1 6) .memReq], [.tlpView (.header .dw4 2 1 7) .memReq]] ∧
      [exec (.iord 1), exec (.iowr 1), exec (.cfgRd0 1), exec (.cfgWr0 1), exec (.cfgRd1 1), exec (.cfgWr1 1)].map
        (fun f => repliesOf (f State.reset)) =
      [[.tlpView (.header .dw3 0 0 3) .ioReq], [.tlpView (.header .dw3 1 0 4) .ioReq],
        [.tlpView (.header .dw3 0 0 3) .cfgReq], [.tlpView (.header .dw3 1 0 4) .cfgReq],
        [.tlpView (.header .dw3 0 0 3) .cfgReq], [.tlpView (.header .dw3 1 0 4) .cfgReq]] := by decide +kernel
theorem test_type_rows_others :
    [exec (.cpl 1), exec (.cplD 1), exec (.cplLk 1), exec (.cplDLk 1), exec (.msg 0x1000001), exec (.msgD 0x1000001),
        exec (.lprfx 1), exec (.eprfx 1)].map (fun f => repliesOf (f State.reset)) =
      [[.tlpView (.header .dw3 0 0 3) .completion], [.tlpView (.header .dw3 1 0 4) .completion],
        [.tlpView (.header .dw3 0 0 3) .completion], [.tlpView (.header .dw3 1 0 4) .completion],
        [.tlpView (.header .dw4 0 0 4) .message], [.tlpView (.header .dw4 1 0 5) .message],
        [.tlpView .prefixWord .prefixView], [.tlpView .prefixWord .prefixView]] ∧
      [exec (.fetchAdd32 1), exec (.fetchAdd64 1), exec (.swap32 1), exec (.swap64 1), exec (.cas32 1),
        exec (.cas64 1)].map (fun f => repliesOf (f State.reset)) =
      [[.tlpView (.header .dw3 1 0 4) .atomicReq], [.tlpView (.header .dw4 1 0 5) .atomicReq],
        [.tlpView (.header .dw3 1 0 4) .atomicReq], [.tlpView (.header .dw4 1 0 5) .atomicReq],
        [.tlpView (.header .dw3 1 0 4) .atomicReq], [.tlpView (.header .dw4 1 0 5) .atomicReq]] := by decide +kernel
/-- The header of V-SRC-1. -/
def h1 : Header := ⟨0x4A000001, 0x02000004, 0x01000500, 0, .dw3⟩
/-- R223, worked example. -/
theorem test_tlp_decode :
    repliesOf (exec (.tlpDecode cw) State.reset) =
      [.decoded (.ok ⟨⟨0x44000001, 0x0100050F, 0x02000200, 0, .dw3⟩, 0, 3, 1⟩)] := by decide +kernel
theorem test_tlp_decode_truncated :
    repliesOf (exec (.tlpDecode (cw.take 3)) State.reset) = [.decoded (.error .truncated)] ∧
      repliesOf (exec (.tlpDecode [0x80000000, 0xA0000000]) State.reset) = [.decoded (.error .invalidFormat)] := by
  decide +kernel
/-- R224, worked example: `4A 00 00 01 02 00 00 04 01 00 05 00`, and the buffer of 8 bytes. -/
theorem test_tlp_encode :
    let t := nextOf (exec (.tlpEncode h1 16) State.reset)
    t.replies = [.encoded (.ok 12)] ∧
      (List.range 13).map (hostByte t) = [0x4A, 0, 0, 1, 2, 0, 0, 4, 1, 0, 5, 0, 0] := by decide +kernel
theorem test_tlp_encode_small :
    repliesOf (exec (.tlpEncode h1 8) State.reset) = [.encoded (.error .bufferTooSmall)] := by decide +kernel
/-- R225, worked example (V-TX-1). -/
theorem test_tlp_send :
    let o := exec (.tlpSend h1 [0x42000000]) (fed [] [.ok])
    repliesOf o = [.sent .ok] ∧
      sentBy o = [0x4A, 0, 0, 1, 0, 0, 0, 0x77, 2, 0, 0, 4, 0, 0, 0, 0x77, 1, 0, 5, 0, 0, 0, 0, 0x77,
        0x42, 0, 0, 0, 0, 0, 4, 0x77] := by decide +kernel
theorem test_tlp_send_mismatch :
    repliesOf (exec (.tlpSend h1 []) (fed [] [.ok])) = [.sent .lengthMismatch] := by decide +kernel
/-- V-SRC-6. -/
theorem test_cfg_regoff :
    repliesOf (exec (.cfgRegoff ⟨0, 0, 0x00000FFC, 0, .dw3⟩) State.reset) = [.regOff 0xFFC] ∧
      repliesOf (exec (.cfgRegoff ⟨0, 0, 0x02000200, 0, .dw3⟩) State.reset) = [.regOff Lit.consoleRegOff] ∧
      repliesOf (exec (.cfgRegoff ⟨0, 0, 0xFFFFF003, 0, .dw3⟩) State.reset) = [.regOff 0] := by decide +kernel
/-- The transmit records of V-TX-1. -/
theorem test_tx_units :
    (nextOf (exec (.txTlpWord 0x4A000001) State.reset)).txFrame = [0x4A, 0, 0, 1, 0, 0, 0, 0x77] ∧
      (nextOf (exec (.txTlpLast 0x42000000) State.reset)).txFrame = [0x42, 0, 0, 0, 0, 0, 4, 0x77] := by
  decide +kernel

/-! ### Register access -/

/-- V-RG-1 (R290, worked example). -/
theorem test_reg_read :
    let o := exec (.regRead 8 1 0 3) (fed [group 0xEFFFFFF3 [0x00080400]] [.ok])
    repliesOf o = [.regRead .ok [4]] ∧ sentBy o = [0, 0, 0, 0, 0, 8, 0x13, 0x77] := by decide +kernel
/-- An odd address: the sentinel (R302). -/
theorem test_reg_read_odd :
    repliesOf (exec (.regRead 0x19 1 0x8000 3) (fed [group 0xEFFFFFF3 [0x8018003F]] [.ok])) = [.regRead .ok [0x3F]] := by
  decide +kernel
theorem test_reg_read8 :
    repliesOf (exec (.regRead8 8 0) (fed [group 0xEFFFFFF3 [0x00080400]] [.ok])) = [.regRead .ok [4]] := by
  decide +kernel
/-- V-RG-3 (R295, worked example). -/
theorem test_reg_write :
    let o := exec (.regWrite 0x19 [0x2F] 0x8000 3) (fed [] [.ok])
    repliesOf o = [.regWrite .ok] ∧ sentBy o = [0x00, 0x2F, 0x00, 0xFF, 0x80, 0x18, 0x23, 0x77] := by decide +kernel
/-- R281. -/
theorem test_reg_write_range :
    repliesOf (exec (.regWrite 0xFFF [1, 2] 0 3) State.reset) = [.regWrite .rangeError] := by decide +kernel
theorem test_reg_clrbits :
    let o := exec (.regClrbits8 0x19 0x10 0x8000) (fed [group 0xEFFFFFF3 [0x8018003F]] [.ok, .ok])
    repliesOf o = [.regRead .ok [0x3F], .regWrite .ok] ∧
      (sentBy o).drop 8 = [0x00, 0x2F, 0x00, 0xFF, 0x80, 0x18, 0x23, 0x77] := by decide +kernel
/-- The start-up of R300, worked example (program P1). -/
theorem test_session_init :
    let o := exec .sessionInit
      (fed [group 0xEFFFFFF3 [0x00080400], group 0xEFFFFFF3 [0x8018003F]] [.ok, .ok, .ok])
    (nextOf o).session = .ready ∧ (sentBy o).drop 16 = [0x00, 0x2F, 0x00, 0xFF, 0x80, 0x18, 0x23, 0x77] := by
  decide +kernel
theorem test_session_init_mismatch :
    (nextOf (exec .sessionInit (fed [group 0xEFFFFFF3 [0x00080500]] [.ok]))).session = .fatal .versionMismatch := by
  decide +kernel
/-- A transaction that waits for the bytes of 0x0019 and of 0x001A. -/
def harvesting : State :=
  { State.reset with
    ctl := .reg
    txn := { Txn.none with
      phase := .harvest, addr := 0x19, cnt := 2, ch := 3, k := 1, out := [0, 0], got := [false, false]
      pend := [0x8018AABB] } }
/-- R287. -/
theorem test_regresp :
    let t := (nextOf (exec (.regresp 0x8018 0xAA 0xBB) harvesting)).txn
    (t.out, t.got, t.pend) = ([0xBB, 0], [true, false], []) := by decide +kernel
/-- R291, R296: records put into the batch. -/
theorem test_reg_records :
    (nextOf (exec (.regRd 0 4 3) State.reset)).txn.batch = [0, 0, 0, 0, 0, 8, 0x13, 0x77] ∧
      (nextOf (exec (.regWr 0 0x2F 0 0xFF 2 12 3) State.reset)).txn.batch =
        [0x00, 0x2F, 0x00, 0xFF, 0x80, 0x18, 0x23, 0x77] := by decide +kernel
theorem test_reg_record_refused :
    (nextOf (exec (.regRd 1 4 3) State.reset)).txn.result = .badOperand := by decide +kernel

/-! ### Steps -/

/-- A unit placed for the next step is the one that runs. -/
theorem test_fetch_word :
    repliesOf (step (State.reset.withFetchWord 8 0x03)) = [.ok] ∧
      (nextOf (step (State.reset.withFetchWord 32 0xEFFF4000))).rx.sf = 0xEFFF4000 ∧
      (nextOf (step (State.reset.withFetchWord 4 0xC))).rx.st = .tlpComplete ∧
      (nextOf (step (State.reset.withFetchWord 64 0x0000000000081377))).txn.put = 1 := by decide +kernel
/-- R150: a code outside the table. -/
theorem test_unknown_code :
    (match step { State.reset with port := [⟨.hostCmd, [0x04]⟩] } with
      | .refused r => decide (r = .undecodable (.unknownCode 0x04))
      | _ => false) = true := by decide +kernel

/-! ### Witnesses: states that meet the hypotheses of the statements, each clause at a boundary -/

/-- The reset receiver has its invariants. -/
theorem witness_receiver :
    Params.reference.wf ∧ Receiver.Inv Params.reference r0 ∧ Receiver.FieldInv r0 ∧ Receiver.BufInv r0 :=
  ⟨by decide, ⟨by decide, List.length_replicate, by decide, by decide, by decide, fun _ => .inl rfl,
      fun _ => ⟨rfl, rfl, rfl⟩, (fun h => nomatch h), by decide, fun _ h => nomatch h⟩, (fun h => nomatch h),
    ⟨⟨List.Pairwise.nil, fun _ h => nomatch h⟩, fun _ h => nomatch h⟩⟩
/-- The reset state with this operation in progress and these packets and draws to come has the invariant. -/
theorem witness_inv (c : Ctl) (p : List Packet) (rs : List ReadAnswer) (ws : List WriteAnswer) :
    ({ State.reset with ctl := c, port := p, rxFeed := rs, txFeed := ws } : State).Inv :=
  ⟨witness_receiver.1, witness_receiver.2.1, witness_receiver.2.2.1, witness_receiver.2.2.2,
    ⟨List.Pairwise.nil, fun _ h => nomatch h⟩, (fun h => nomatch h), fun _ => rfl, rfl, fun h => nomatch h⟩
/-- `DecodeEncode`, `EncodeDecode`. -/
theorem witness_encoding :
    encode (.slotTlpLast 1) = some ⟨.slot, [0xC]⟩ ∧ Format.slot ≠ .hostCmd ∧
      decode ⟨.slot, [0xC]⟩ = .ok (.slotTlpLast 1) := by decide +kernel
/-- `UnknownCodeRefused`. -/
theorem witness_unknown_code :
    hasHalted State.reset = false ∧ cursorOk State.reset.rx = true ∧ State.reset.ctl = .idle ∧
      0x31 ∉ [0x01, 0x02, 0x03, 0x10, 0x11, 0x12, 0x13, 0x14, 0x20, 0x21, 0x30] := by decide
/-- `StepRunsHostCommand`. -/
theorem witness_host_command :
    let s : State := { State.reset with port := [⟨.hostCmd, [0x01]⟩] }
    hasHalted s = false ∧ cursorOk s.rx = true ∧ s.ctl = .idle ∧ s.port = [⟨.hostCmd, [0x01]⟩] ∧
      isHostFormat .hostCmd = true ∧ decode ⟨.hostCmd, [0x01]⟩ = .ok .rxDecode := by decide +kernel
/-- `StepRunsDueUnit`, its clauses in order. -/
theorem witness_due_status :
    let s := inDecode { r0 with rxbuf := Memory.store [] 0 (bytesBe 0xEFFF4000), lim := 1 } []
    cursorOk s.rx = true ∧ s.ctl = .rx false ∧ s.rx.st = .awaitingStatus ∧ s.rx.rd ≠ s.rx.lim ∧
      decode ⟨.rxStatus, [(frameValue s.cfg.frameOrder (bufWord s.rx s.rx.rd)).toNat]⟩ = .ok (.status 0xFFF4000) := by
  decide +kernel
theorem witness_due_slot :
    let s := atSlot 6 .inRemainder 7
    cursorOk s.rx = true ∧ s.ctl = .rx false ∧ s.rx.st = .inRemainder ∧ s.rx.slot ≠ 7 ∧
      decode ⟨.slot, [s.rx.sf.toNat % 16]⟩ = .ok (.slotNonTlp11 3) := by decide +kernel
theorem witness_due_response :
    harvesting.ctl = .reg ∧ harvesting.txn.phase = .harvest ∧ harvesting.txn.pend = [0x8018AABB] ∧
      decode ⟨.regResp, [0x8018AABB]⟩ = .ok (.regresp 0x8018 0xAA 0xBB) := by decide +kernel
/-- A transaction in phase Issue with one record to send and `b` bytes in the batch. -/
def issuing (b : Nat) : State :=
  { State.reset with
    ctl := .reg
    txn := { Txn.none with phase := .issue, recs := [0x0000000000081377], batch := List.replicate b 0 } }
theorem witness_due_record :
    (issuing 0).ctl = .reg ∧ (issuing 0).txn.phase = .issue ∧
      (issuing 0).txn.recs[(issuing 0).txn.put]? = some 0x0000000000081377 ∧
      decode ⟨.regReq, [0x0000000000081377]⟩ = .ok (.regRd 0 4 3) := by decide +kernel
theorem witness_due_word :
    ({ State.reset with ctl := .send [0x42000000] } : State).ctl = .send [0x42000000] ∧
      decode ⟨.txTlp, [(txTlpRec 0x42000000 true).toNat]⟩ = .ok (.txTlpLast 0x42000000) := by decide +kernel
/-- `StepAgreesWithRules`, `OperationIsItsSteps`. -/
theorem witness_in_progress :
    hasHalted (inDecode r0 []) = false ∧ (inDecode r0 []).ctl ≠ .idle ∧ (inDecode r0 []).Inv :=
  ⟨rfl, (fun h => nomatch h), witness_inv (.rx false) [] [] []⟩
/-- `StepKeepsInvariant`, `StepKeepsConfig`, `StepHistoriesGrow`: a step that does something. -/
theorem witness_step :
    ∃ s t : State, s.Inv ∧ step s = .next t ∧ t.replies = [.complete cw] :=
  ⟨{ State.reset with port := [⟨.hostCmd, [0x01]⟩], rxFeed := [rd grp1] }, _,
    witness_inv .idle [⟨.hostCmd, [0x01]⟩] [rd grp1] [], rfl, by decide +kernel⟩
/-- `FatalHasNoStep`. -/
theorem witness_fatal :
    (State.reset.setSession (.fatal .versionMismatch)).session = .fatal .versionMismatch := rfl
/-- `WaitingKeepsState`: in AwaitingStatus; in a group at slot 6; a dispatch that waits. -/
theorem witness_waiting_receiver :
    let s := inDecode { r0 with st := .inData, slot := 6 } []
    hasHalted s = false ∧ cursorOk s.rx = true ∧ s.ctl = .rx false ∧ s.rxFeed = [] ∧ s.rx.rd = s.rx.lim ∧
      (s.rx.st = .inData ∧ s.rx.slot ≠ 7) ∧ (inDecode r0 []).rx.st = .awaitingStatus := by decide +kernel
theorem witness_waits : tick (inDecode r0 []) = .waits (inDecode r0 []) := rfl
/-- `WaitingKeepsState`: a dispatch that waits after an empty read in the middle of a group. -/
theorem witness_waits_read :
    (match tick (inDecode { r0 with st := .inData, slot := 6 } [.tErr]) with
      | .waits t => decide (t.rx.retries = 1 ∧ t.rx.st = .inData ∧ t.trace = [.didRead .tErr])
      | .go _ => false) = true := by decide +kernel
/-- `WaitingKeepsState`, the writes: before the frame; before a record that does not fit; before the last batch. -/
theorem witness_writes :
    let s := ({ issuing 8 with txn := { (issuing 8).txn with put := 1 } } : State)
    hasHalted s = false ∧ cursorOk s.rx = true ∧ s.ctl = .reg ∧ s.txn.phase = .issue ∧
      s.txn.put = s.txn.recs.length ∧ s.txn.batch ≠ [] ∧ s.txFeed = [] ∧
      ({ State.reset with ctl := .send [] } : State).ctl = .send [] ∧
      (issuing 1024).txn.recs[(issuing 1024).txn.put]? = some 0x0000000000081377 ∧
      (issuing 1024).cfg.txBatchBytes < (issuing 1024).txn.batch.length + 8 := by decide +kernel
/-- `WaitingKeepsState`: in the harvest before its first read. -/
theorem witness_waiting_harvest :
    let s := ({ harvesting with txn := { harvesting.txn with k := 0, pend := [] } } : State)
    s.ctl = .reg ∧ s.txn.phase = .harvest ∧ s.txn.pend = [] ∧ s.rxFeed = [] ∧ s.txn.k < s.cfg.harvestReads ∧
      (∃ b ∈ s.txn.got, b = false) ∧ s.txn.k = 0 := by decide +kernel
/-- `TlpSlotUnits` at slot 0 and slot 6, `DiscardedSlotUnits`, `EndOfGroup`. -/
theorem witness_slots :
    (let s := atSlot 0 .inData 0x44000001;
      cursorOk s.rx = true ∧ s.rx.rd ≠ s.rx.lim ∧ s.rx.slot < 7 ∧ s.rx.st = .inData) ∧
    (let s := atSlot 6 .inData 7; cursorOk s.rx = true ∧ s.rx.rd ≠ s.rx.lim ∧ s.rx.slot < 7 ∧ s.rx.st = .inData) ∧
    (let s := atSlot 6 .inRemainder 7;
      cursorOk s.rx = true ∧ s.rx.rd ≠ s.rx.lim ∧ s.rx.slot < 7 ∧ s.rx.st = .inRemainder) ∧
    (let s := atSlot 7 .inRemainder 7; cursorOk s.rx = true ∧ s.rx.slot = 7) := by decide +kernel
/-- `AppendRule`, its clauses in order: a full accumulator, the last free word, and the three kinds of leader. -/
theorem witness_append :
    (260 ≤ ({ r0 with n := 260 } : Receiver).n) ∧
      (({ r0 with n := 259, exp := .known 4 } : Receiver).n < 260 ∧
        ({ r0 with n := 259, exp := .known 4 } : Receiver).exp ≠ .unknown) ∧
      (r0.n < 260 ∧ r0.exp = .unknown) ∧ (0x9FFFFFFF : Word).toNat / 2 ^ 29 = 4 ∧
      (0x7FFFFFFF : Word).toNat / 2 ^ 29 < 4 ∧ 4 < (0xA0000000 : Word).toNat / 2 ^ 29 := by decide +kernel
/-- `StepCompleteRule`, its clauses in order. -/
theorem witness_complete :
    let s := inDecode { r0 with st := .tlpComplete, n := 4, exp := .known 4 } []
    (hasHalted s = false ∧ cursorOk s.rx = true ∧ s.ctl = .rx false ∧ s.rx.st = .tlpComplete) ∧
      ({ s.rx with ovf := true } : Receiver).ovf = true ∧
      (s.rx.ovf = false ∧ ({ s.rx with exp := .invalid } : Receiver).exp = .invalid) ∧
      ({ s.rx with exp := .unknown } : Receiver).exp = .unknown ∧
      (({ s.rx with exp := .known 5 } : Receiver).exp = .known 5 ∧ 5 ≠ s.rx.n) ∧ s.rx.exp = .known s.rx.n := by
  decide +kernel
/-- `OutOfSyncRule`: the top nibble 0xD, one below the marker, buffered; and 0xF, one above, read. -/
theorem witness_out_of_sync :
    let s := inDecode { r0 with rxbuf := Memory.store [] 0 (bytesBe 0xDFFFFFFF), lim := 1 } []
    hasHalted s = false ∧ cursorOk s.rx = true ∧ s.ctl = .rx false ∧ s.rx.st = .awaitingStatus ∧ s.rx.rd ≠ s.rx.lim ∧
      frameValue s.cfg.frameOrder (bufWord s.rx s.rx.rd) ≠ 0x55556666 ∧
      (frameValue s.cfg.frameOrder (bufWord s.rx s.rx.rd)).toNat / 2 ^ 28 ≠ 0xE := by decide +kernel
theorem witness_out_of_sync_read :
    let s := inDecode r0 [rd [0xFFFFFFFF]]
    s.ctl = .rx false ∧ s.rx.st = .awaitingStatus ∧ s.rx.rd = s.rx.lim ∧
      s.rxFeed = .bytes (bytesOfWords [0xFFFFFFFF]) :: [] ∧ 4 ≤ (bytesOfWords [0xFFFFFFFF]).length ∧
      frameValue .be (be32 0xFF 0xFF 0xFF 0xFF) ≠ 0x55556666 ∧
      (frameValue .be (be32 0xFF 0xFF 0xFF 0xFF)).toNat / 2 ^ 28 ≠ 0xE := by decide +kernel
/-- `NoDataRule`, both cases, with 3 bytes and with a TErr. -/
theorem witness_no_data :
    (let s := inDecode r0 [.bytes [1, 2, 3]];
      hasHalted s = false ∧ cursorOk s.rx = true ∧ s.ctl = .rx false ∧ s.rx.rd = s.rx.lim ∧
        s.rxFeed = .bytes [1, 2, 3] :: [] ∧ isShort (.bytes [1, 2, 3]) = true ∧ s.rx.st = .awaitingStatus) ∧
      (let s := ({ inDecode { r0 with st := .inData, slot := 6 } [.tErr] with
          cfg := { Params.reference with noDataPolicy := .stateOrIdle } } : State);
        s.rxFeed = .tErr :: [] ∧ isShort .tErr = true ∧ s.cfg.noDataPolicy = .stateOrIdle ∧ s.rx.n = 0 ∧
          s.rx.ovf = false ∧ s.rx.slot ≠ 7 ∧ s.rx.st = .inData) := by decide +kernel
/-- `RetryRule`: the second retry of two, and the third. -/
theorem witness_retry :
    let s := fun k => ({ inDecode { r0 with st := .inData, slot := 6, n := 1, retries := k } [.tErr] with
      cfg := { Params.reference with maxEmptyRetries := some 2 } } : State)
    (hasHalted (s 1) = false ∧ cursorOk (s 1).rx = true ∧ (s 1).ctl = .rx false ∧ (s 1).rx.rd = (s 1).rx.lim ∧
      (s 1).rxFeed = .tErr :: [] ∧ (s 1).rx.st = .inData ∧ (s 1).rx.slot ≠ 7 ∧ (s 1).cfg.noDataPolicy = .state) ∧
      (s 1).rx.retries + 1 ≤ 2 ∧ 2 < (s 2).rx.retries + 1 ∧ (s 2).cfg.maxEmptyRetries = some 2 := by decide +kernel
/-- `FetchWordRule`: 4 bytes, and more than 1040. -/
theorem witness_fetch :
    (fed [.bytes [1, 2, 3, 4]] []).rx.rd = (fed [.bytes [1, 2, 3, 4]] []).rx.lim ∧ 4 ≤ [1, 2, 3, 4].length ∧
      4 ≤ (List.replicate 1041 (0 : Byte)).length ∧ (atSlot 0 .inData 7).rx.rd ≠ (atSlot 0 .inData 7).rx.lim := by
  decide +kernel
/-- `RxDecodeOutcome`, `RxNextOutcome`. -/
theorem witness_rx_decode : (fed [rd grp1] []).Inv ∧ (fed [rd grp1] []).ctl = .idle :=
  ⟨witness_inv .idle [] [rd grp1] [], rfl⟩
/-- Slots that carry the TLP `CW` with a NON_TLP slot inside it and two slots after it. -/
def mixedSlots : List Slot :=
  [(0, 0x44000001), (0xF, 0x99), (8, 0x0100050F), (0, 0x02000200), (0xC, 0x41000000), (2, 5), (0, 7)]
/-- Two reads of a stream that begins with a filler word, cut inside the group, with three bytes to drop. -/
def mixedReads : List (List Byte) :=
  let w := streamWords .be [(1, mixedSlots)]
  [bytesOfWords (w.take 4) ++ [1, 2, 3], bytesOfWords (w.drop 4)]
/-- A receiver between two TLPs with these two NON_TLP slots of its group to come. -/
def betweenTlps : Receiver := { r0 with st := .inRemainder, slot := 5, sf := 0xE7F }
/-- `RxDecodeDeliversTlp`: before a status word; both clauses. -/
theorem witness_delivers :
    (fed (mixedReads.map .bytes) []).Inv ∧ (fed (mixedReads.map .bytes) []).ctl = .idle ∧ standsBefore r0 [] ∧
      r0.n = 0 ∧ mixedSlots.length = 7 ∧ ((mixedSlots.take 4).all fun x => !isLast x.1) = true ∧ isLast 0xC = true ∧
      [((2 : Nibble), (5 : Word)), (0, 7)].length < 7 ∧
      ((mixedSlots.take 4).filter fun x => isTlp x.1).map (·.2) ++ [0x41000000] = cw ∧
      cw.length ≤ 260 ∧ tlpLen cw = .len 0 .dw3 1 0 cw.length ∧ slotTlps [] mixedSlots = [cw] :=
  ⟨witness_inv .idle [] _ [], rfl, .inl ⟨rfl, rfl⟩, rfl, rfl, by decide +kernel, by decide +kernel, by decide +kernel, by decide +kernel,
    by decide +kernel, by decide +kernel, by decide +kernel⟩
theorem witness_delivers_reads :
    (∀ b ∈ mixedReads, 4 ≤ b.length ∧ b.length ≤ 1040) ∧
      bufferedWords r0 ++ mixedReads.flatMap wordsOf = (streamWords .be [(1, mixedSlots)]).take 7 ++ [5, 7] ∧
      (bufferedWords r0 ++ mixedReads.dropLast.flatMap wordsOf).length < 7 := by decide +kernel
/-- `RxDecodeDeliversTlp`: inside a group, at slot 5. -/
theorem witness_delivers_mid :
    ({ State.reset with rx := betweenTlps } : State).Inv ∧ standsBefore betweenTlps [(0xF, 1), (7, 2)] ∧
      betweenTlps.n = 0 :=
  ⟨⟨by decide +kernel, ⟨by decide +kernel, List.length_replicate, by decide +kernel, by decide +kernel, by decide +kernel, fun _ => .inl rfl,
      fun _ => ⟨rfl, rfl, rfl⟩, (fun h => nomatch h), by decide +kernel, fun _ h => nomatch h⟩, fun _ => by decide +kernel,
    ⟨⟨List.Pairwise.nil, fun _ h => nomatch h⟩, fun _ h => nomatch h⟩,
    ⟨List.Pairwise.nil, fun _ h => nomatch h⟩, (fun h => nomatch h), fun _ => rfl, rfl, fun h => nomatch h⟩,
    .inr ⟨rfl, by decide +kernel, .inr ⟨rfl, by decide +kernel⟩⟩, rfl⟩
/-- V-DI-1 with the TLP cut by a NON_TLP slot and by the reads: one Complete. -/
theorem test_delivers : repliesOf (exec .rxDecode (fed (mixedReads.map .bytes) [])) = [.complete cw] := by
  decide +kernel
/-- `FmtRowsResult`, `TypeRowsResult`, `FmtRowsInReceiver`, `TypeRowsInReceiver`. -/
theorem witness_leaders :
    inRx State.reset.ctl = false ∧ (inDecode r0 []).ctl = .rx false ∧ (inDecode r0 []).rx.exp = .unknown ∧
      (inDecode { r0 with exp := .invalid } []).rx.exp ≠ .unknown := by decide +kernel
/-- `PrefixLaw`, `TlpDecodeResult`, `CodecRoundTrip`, `TlpSendResult`, `TlpSendRefused`. -/
theorem witness_codec :
    (0x9FFFFFFF : Word).toNat / 2 ^ 29 = 4 ∧ hdrLen 0x60008000 = .header .dw4 1024 1 1029 ∧
      4 < (0xA0000000 : Word).toNat / 2 ^ 29 ∧ hdrLen h1.w0 = .header h1.hw 1 0 4 ∧ (h1.hw = .dw3 → h1.w3 = 0) ∧
      [(0x42000000 : Word)].length = 1 + 0 ∧ hdrCount .dw3 + [(0x42000000 : Word)].length = 4 ∧
      hdrCount .dw3 + ([] : List Word).length ≠ 4 ∧ 4 ≤ (0x80000000 : Word).toNat / 2 ^ 29 ∧
      nextWrite (fed [] [.ok]) = .ok ∧ nextWrite (fed [] [.tErr 3]) = .tErr 3 := by decide +kernel
/-- `FieldLaws`: two neighbouring fields of word 0, the first at its top. -/
theorem witness_fields :
    fieldFmt.word < 4 ∧ fieldFmt.lo + fieldFmt.width ≤ 32 ∧ fieldType.lo + fieldType.width ≤ 32 ∧
      fieldType.lo + fieldType.width ≤ fieldFmt.lo := by decide
/-- `RegOperandChecks`: no legal region; 4097 bytes; the empty range at the end of the space. -/
theorem witness_operands :
    State.reset.ctl = .idle ∧ State.reset.txn = Txn.none ∧
      ¬ ((0x4000 : Half) = 0x0000 ∨ (0x4000 : Half) = 0x8000 ∨ (0x4000 : Half) = 0xC000) ∧
      ((0xC000 : Half) = 0x0000 ∨ (0xC000 : Half) = 0x8000 ∨ (0xC000 : Half) = 0xC000) ∧ 4096 < 4096 + 1 ∧
      4096 + 0 ≤ 4096 := by decide +kernel
/-- `RecordBytes`, `PairsRule`, `RecordsAreLegal`, `PlaceRule`: the last byte of the register space. -/
theorem witness_records :
    let t : Txn := { Txn.none with
      isWrite := true, addr := 4095, cnt := 1, data := [1], region := 0xC000, ch := 3, out := [0], got := [false] }
    regionLegal t.region = true ∧ channelLegal t.ch = true ∧ 0 < t.cnt ∧ 4095 < 4096 ∧ t.addr + t.cnt ≤ 4096 ∧
      t.data.length = t.cnt ∧ t.out.length = t.cnt ∧ t.got.length = t.cnt := by decide +kernel
/-- `ScanRule`: a filler word, a word one below the marker, a status word. -/
theorem witness_scan :
    frameValue .be 0x55556666 = 0x55556666 ∧ frameValue .be 0xDFFFFFFF ≠ 0x55556666 ∧
      (frameValue .be 0xDFFFFFFF).toNat / 2 ^ 28 ≠ 0xE ∧ (frameValue .be 0xE0000000).toNat / 2 ^ 28 = 0xE := by
  decide +kernel
/-- `RegisterUnits`: a batch that is just not full, and one that is, its write accepted and failing. -/
theorem witness_register_units :
    (issuing 1016).txn.batch.length + 8 ≤ (issuing 1016).cfg.txBatchBytes ∧
      ({ issuing 1024 with txFeed := [.ok] } : State).cfg.txBatchBytes < (issuing 1024).txn.batch.length + 8 ∧
      nextWrite { issuing 1024 with txFeed := [.ok] } = .ok ∧
      nextWrite { issuing 1024 with txFeed := [.tErr 1024] } = .tErr 1024 ∧
      (0 : BitVec 2) ≠ 0b01 ∧ (3 : BitVec 2) ≠ 0 := by decide +kernel
/-- A harvest buffer with one response word of channel 3. -/
def response (w : Word) : List Byte := bytesOfWords [0xEFFFFFF3, w]
/-- The reset state with `HARVEST_READS` = 2 and batches of one record. -/
def twoReads (rs : List (List Byte)) (ws : List WriteAnswer) : State :=
  { fed (rs.map .bytes) ws with cfg := { Params.reference with harvestReads := 2, txBatchBytes := 8 } }
/-- `RegReadResult`, `RegWriteResult`: three bytes up to the end of the space in two records and two reads, the
first read a full one that leaves bytes unmatched; and a harvest that ends unmatched by an empty read. -/
theorem witness_register_results :
    let bss := [response 0xCFFE0055, response 0xCFFC6677]
    let s := twoReads bss [.ok, .ok]
    s.cfg.wf ∧ regionLegal 0xC000 = true ∧ channelLegal 3 = true ∧ 4093 + 3 ≤ 4096 ∧
      (batchesOf 8 (readWire 4093 3 0xC000 3)).length = 2 ∧ acceptsWrites 2 s = true ∧
      harvestEnds s.cfg 4093 3 3 bss ∧ (harvested .be 4093 3 3 bss).got = [true, true, true] ∧
      harvestEnds s.cfg 4093 3 3 [[]] ∧ (harvested .be 4093 3 3 [[]]).got = [false, false, false] ∧
      (batchesOf 8 (writeWire 4093 [1, 2, 3] 0xC000 3)).length = 2 := by decide +kernel
/-- `RegTransportErrors`: the second batch of two; the second read of two, one byte of three matched by then. -/
theorem witness_transport_errors :
    (twoReads [] [.ok, .tErr 7]).txFeed = List.replicate 1 .ok ++ .tErr 7 :: [] ∧ [(1 : Byte), 2, 3].length = 3 ∧
      [response 0xCFFC6677].length < (twoReads [] []).cfg.harvestReads ∧
      harvestOpen .be 4093 3 3 [response 0xCFFC6677] ∧
      (harvested .be 4093 3 3 [response 0xCFFC6677]).got = [true, false, false] := by decide +kernel
/-- `RegClrbitsResult`, `SessionInitReady`, `SessionInitFatal`: each clause's harvest. -/
theorem witness_session :
    let p := Params.reference
    let q := (twoReads [] []).cfg
    acceptsWrites 3 (fed [] [.ok, .ok, .ok]) = true ∧ regionLegal 0x4000 = false ∧
      harvestEnds p 8 1 3 [response 0x00080400] ∧ (harvested .be 8 1 3 [response 0x00080400]).got = [true] ∧
      (harvested .be 8 1 3 [response 0x00080400]).out = [4] ∧
      harvestEnds q 0x19 1 3 [response 0x00080400, response 0x8018003F] ∧
      (harvested .be 0x19 1 3 [response 0x00080400, response 0x8018003F]).got = [true] ∧
      (harvested .be 0x19 1 3 [response 0x00080400, response 0x8018003F]).out = [0x3F] ∧
      harvestOpen .be 0x19 1 3 [response 0x00080400] ∧ harvestOpen .be 8 1 3 [] ∧
      (harvested .be 8 1 3 [response 0x00080500]).out ≠ [4] ∧
      harvestEnds p 8 1 3 [[]] ∧ (harvested .be 8 1 3 [[]]).got = [false] ∧
      harvestEnds p 0x19 1 3 [[]] ∧ (harvested .be 0x19 1 3 [[]]).got = [false] := by decide +kernel
/-- V-SI-6 of spec/95_test_vectors.md: the filter write errs. -/
theorem test_filter_write_fails :
    let o := exec .sessionInit
      (fed [.bytes (response 0x00080400), .bytes (response 0x8018003F)] [.ok, .ok, .tErr 0])
    repliesOf o = [.session (.fatal .filterClearFailure)] := by decide +kernel
/-- `ReceiverFrame`, `HostMemFrame`, `TransmitFrame`, `SessionIsOpaque`. -/
theorem witness_frames :
    actsOnReceiver (.cfgRegoff h1) = false ∧ maySend (.cfgRegoff h1) = false ∧ Instr.cfgRegoff h1 ≠ .sessionInit ∧
      exec (.cfgRegoff h1) State.reset = .next (nextOf (exec (.cfgRegoff h1) State.reset)) :=
  ⟨rfl, rfl, (fun h => nomatch h), rfl⟩

end Sys2Proof.Tests
end

section
/-! SUPPORT. The proofs of the family of spec/10_state.md: the invariant of the machine, the host command port,
reset and the session. -/

namespace Sys2Proof.Machine

/-! ## The receiver and its fetches -/

/-! ### The receiver's invariant, in three parts -/

/-- The accumulator's part of the receiver's invariant (R40.1, R40.6, R40.7, R250). -/
structure AccOk (p : Params) (r : Receiver) : Prop where
  n_le : r.n ≤ p.accCap
  length_eq : r.acc.length = p.accCap
  of_unknown : r.exp = .unknown → r.pfx = r.n ∨ r.ovf = true
  of_empty : r.n = 0 → r.exp = .unknown ∧ r.pfx = 0 ∧ r.ovf = false
  exp_ne : r.exp ≠ .known 0
  pfx_le : r.pfx ≤ r.n

/-- The part of the buffer, the cursor and the retry count (R40.3, R70, R173). -/
structure CursorOk (p : Params) (r : Receiver) : Prop where
  rd_le : r.rd ≤ r.lim
  lim_le : r.lim ≤ Lit.rxBufWords
  retries_le : ∀ m ∈ p.maxEmptyRetries, r.retries ≤ m
  buf : Receiver.BufInv r

/-- The part of the status field and the slot (R40.2, R40.5). -/
structure FieldOk (r : Receiver) : Prop where
  slot_le : r.slot ≤ 7
  field : Receiver.FieldInv r

/-- The receiver's invariants together: what `State.Inv` asks of `s.rx`. -/
structure ReceiverOk (p : Params) (r : Receiver) : Prop where
  acc : AccOk p r
  cursor : CursorOk p r
  field : FieldOk r

theorem receiverOk_iff (p : Params) (r : Receiver) :
    ReceiverOk p r ↔ Receiver.Inv p r ∧ Receiver.FieldInv r ∧ Receiver.BufInv r := by
  constructor
  · rintro ⟨⟨hn, hlen, hunk, hemp, hexp, hpfx⟩, ⟨hrd, hlim, hret, hbuf⟩, ⟨hslot, hf⟩⟩
    exact ⟨⟨hn, hlen, hslot, hrd, hlim, hunk, hemp, hexp, hpfx, hret⟩, hf, hbuf⟩
  · rintro ⟨⟨hn, hlen, hslot, hrd, hlim, hunk, hemp, hexp, hpfx, hret⟩, hf, hbuf⟩
    exact ⟨⟨hn, hlen, hunk, hemp, hexp, hpfx⟩, ⟨hrd, hlim, hret, hbuf⟩, ⟨hslot, hf⟩⟩

/-! Each part depends on its own fields only. -/

theorem AccOk.congr {p : Params} {r r' : Receiver} (h : AccOk p r)
    (e : (r'.n, r'.acc, r'.pfx, r'.exp, r'.ovf) = (r.n, r.acc, r.pfx, r.exp, r.ovf)) : AccOk p r' := by
  simp only [Prod.mk.injEq] at e
  obtain ⟨hn, hacc, hpfx, hexp, hovf⟩ := e
  obtain ⟨h1, h2, h3, h4, h5, h6⟩ := h
  constructor <;> simpa only [hn, hacc, hpfx, hexp, hovf]

theorem CursorOk.congr {p : Params} {r r' : Receiver} (h : CursorOk p r)
    (e : (r'.rd, r'.lim, r'.retries, r'.rxbuf) = (r.rd, r.lim, r.retries, r.rxbuf)) : CursorOk p r' := by
  simp only [Prod.mk.injEq] at e
  obtain ⟨hrd, hlim, hret, hbuf⟩ := e
  obtain ⟨h1, h2, h3, h4⟩ := h
  constructor <;> simpa only [Receiver.BufInv, hrd, hlim, hret, hbuf]

theorem FieldOk.congr {r r' : Receiver} (h : FieldOk r) (e : (r'.st, r'.sf, r'.slot) = (r.st, r.sf, r.slot)) :
    FieldOk r' := by
  simp only [Prod.mk.injEq] at e
  obtain ⟨hst, hsf, hslot⟩ := e
  obtain ⟨h1, h2⟩ := h
  constructor <;> simpa only [Receiver.FieldInv, hst, hsf, hslot]

/-! ### Updates of the accumulator -/

theorem AccOk.accReset {p : Params} {r : Receiver} (h : AccOk p r) : AccOk p (accReset r) where
  n_le := Nat.zero_le _
  length_eq := h.length_eq
  of_unknown _ := .inl rfl
  of_empty _ := ⟨rfl, rfl, rfl⟩
  exp_ne := nofun
  pfx_le := le_rfl

/-- Append keeps the accumulator's part: a TLPPFX word counts in both `n` and `pfx`, a header fixes a count of at
least 3, and the overflow flag is set only with `n` at the capacity, which is not 0 (R168, R169). -/
theorem AccOk.append {p : Params} {r : Receiver} (h : AccOk p r) (hcap : 0 < p.accCap) (w : Word) :
    AccOk p (append p.accCap w r) := by
  obtain ⟨hn, hlen, hunk, hemp, hexp, hpfx⟩ := h
  rcases append_cases p.accCap w r with ⟨hlt, e⟩ | ⟨hge, e⟩ <;> rw [e]
  · have hlen' : (r.acc.set r.n w).length = p.accCap := by simpa using hlen
    unfold trackExpected
    split
    · rename_i hu
      rcases updateExpected_cases w { r with acc := r.acc.set r.n w, n := r.n + 1 } with
        ⟨-, e⟩ | ⟨_, _, _, t, ht, e⟩ | ⟨-, e⟩ <;> rw [e]
      · exact ⟨hlt, hlen', fun _ => (hunk hu).imp (congrArg (· + 1)) id, nofun, hexp, Nat.succ_le_succ hpfx⟩
      · have ht3 := (hdrLen_total ht).2
        refine ⟨hlt, hlen', nofun, nofun, fun hk => ?_, Nat.le_succ_of_le hpfx⟩
        injection hk with hk
        omega
      · exact ⟨hlt, hlen', nofun, nofun, nofun, Nat.le_succ_of_le hpfx⟩
    · rename_i hk
      exact ⟨hlt, hlen', fun hu => absurd hu hk, nofun, hexp, Nat.le_succ_of_le hpfx⟩
  · refine ⟨hn, hlen, fun _ => .inr rfl, fun h0 => ?_, hexp, hpfx⟩
    have h0 : r.n = 0 := h0
    omega

/-! ### Updates of the buffer and the cursor -/

theorem CursorOk.emptyCursor {p : Params} {r : Receiver} (h : CursorOk p r) : CursorOk p (emptyCursor r) :=
  ⟨le_rfl, Nat.zero_le _, h.retries_le, h.buf⟩

theorem CursorOk.accReset {p : Params} {r : Receiver} (h : CursorOk p r) : CursorOk p (accReset r) :=
  ⟨h.rd_le, h.lim_le, fun _ _ => Nat.zero_le _, h.buf⟩

theorem CursorOk.loadBuffer {p : Params} {r : Receiver} (h : CursorOk p r) {bs : List Byte}
    (hbs : bs.length ≤ Lit.rxBufBytes) : CursorOk p (loadBuffer bs r) where
  rd_le := Nat.zero_le _
  lim_le := Nat.div_le_div_right hbs
  retries_le _ _ := Nat.zero_le _
  buf := ⟨loadBuffer_wf bs r h.buf.1, Memory.store_bound _ _ _ _ h.buf.2 (by omega)⟩

/-- The cursor moves past a word (R161). -/
theorem CursorOk.advance {p : Params} {r : Receiver} (h : CursorOk p r) (hrd : r.rd < r.lim) :
    CursorOk p { r with rd := r.rd + 1 } :=
  ⟨hrd, h.lim_le, h.retries_le, h.buf⟩

/-- One more retry within the bound of R173. -/
theorem CursorOk.retry {p : Params} {r : Receiver} (h : CursorOk p r) (hs : retriesSpent p r = false) :
    CursorOk p { r with retries := r.retries + 1 } := by
  refine ⟨h.rd_le, h.lim_le, fun m hm => ?_, h.buf⟩
  have hm : p.maxEmptyRetries = some m := hm
  simpa [retriesSpent, hm] using hs

/-- The cursor moved to the end of the buffer (R177). -/
theorem CursorOk.discard {p : Params} {r : Receiver} (h : CursorOk p r) : CursorOk p { r with rd := r.lim } :=
  ⟨le_rfl, h.lim_le, h.retries_le, h.buf⟩

/-! ### Updates of the status field -/

/-- Before a status word the field says nothing. -/
theorem fieldOk_of_awaiting {r : Receiver} (hslot : r.slot ≤ 7) (hst : r.st = .awaitingStatus) : FieldOk r :=
  ⟨hslot, fun hg => by simp [inGroup, hst] at hg⟩

/-- An accepted status word has the marker above its seven slots (R101, R162). -/
theorem fieldOk_of_marker {r : Receiver} (hslot : r.slot = 0) (hm : markOf r.sf = Lit.statusMarker) : FieldOk r := by
  refine ⟨by omega, fun _ => ?_⟩
  have hm : (markOf r.sf).toNat = 0xE := by rw [hm]; rfl
  have hlt := r.sf.isLt
  simp only [markOf, BitVec.extractLsb'_toNat, Nat.shiftRight_eq_div_pow] at hm
  simp only [hslot]
  omega

/-- A consumed slot shifts the field by one nibble, so the marker stands where the next slot expects it (R165). -/
theorem FieldOk.advance {r : Receiver} (h : FieldOk r) (hg : inGroup r.st = true) (hslot : r.slot ≠ 7)
    (st : RxState) :
    FieldOk { advance r with st := st } := by
  have hle := h.slot_le
  refine ⟨by simp; omega, fun _ => ?_⟩
  have hpow : 2 ^ 4 * 2 ^ (28 - 4 * (r.slot + 1)) = 2 ^ (28 - 4 * r.slot) := by
    rw [← pow_add]; congr 1; omega
  have hf := h.field hg
  rw [← hpow, ← Nat.div_div_eq_div_mul] at hf
  simpa [Nat.shiftRight_eq_div_pow] using hf

/-- Leaving TlpComplete keeps the field of the group (R170). -/
theorem FieldOk.setSt {r : Receiver} (h : FieldOk r) (hg : inGroup r.st = true) (st : RxState) :
    FieldOk { r with st := st } :=
  ⟨h.slot_le, fun _ => h.field hg⟩

/-! ### Updates of the whole receiver -/

/-- AccReset (R171). -/
theorem ReceiverOk.accReset {p : Params} {r : Receiver} (h : ReceiverOk p r) : ReceiverOk p (accReset r) :=
  ⟨h.acc.accReset, h.cursor.accReset, h.field.congr rfl⟩

/-- The state set to AwaitingStatus, as at the end of a group (R163). -/
theorem ReceiverOk.awaitStatus {p : Params} {r : Receiver} (h : ReceiverOk p r) :
    ReceiverOk p { r with st := .awaitingStatus } :=
  ⟨h.acc.congr rfl, h.cursor.congr rfl, fieldOk_of_awaiting h.field.slot_le rfl⟩

/-- RX_RESET (R178). -/
theorem ReceiverOk.resetReceiver {p : Params} {r : Receiver} (h : ReceiverOk p r) :
    ReceiverOk p (resetReceiver r) :=
  ⟨h.acc.accReset.congr rfl, h.cursor.accReset.emptyCursor.congr rfl, fieldOk_of_awaiting (Nat.zero_le _) rfl⟩

/-- RX_DISCARD (R177). -/
theorem ReceiverOk.discard {p : Params} {r : Receiver} (h : ReceiverOk p r) : ReceiverOk p { r with rd := r.lim } :=
  ⟨h.acc.congr rfl, h.cursor.discard, h.field.congr rfl⟩

/-- An accepted status word (R162). -/
theorem ReceiverOk.acceptStatus {p : Params} {r : Receiver} (h : ReceiverOk p r) {v : Word}
    (hm : markOf v = Lit.statusMarker) : ReceiverOk p { r with sf := v, slot := 0, st := .inData } :=
  ⟨h.acc.congr rfl, h.cursor.congr rfl, fieldOk_of_marker rfl hm⟩

/-- Append touches the accumulator alone (R168). -/
theorem ReceiverOk.append {p : Params} {r : Receiver} (h : ReceiverOk p r) (hcap : 0 < p.accCap) (w : Word) :
    ReceiverOk p (append p.accCap w r) := by
  obtain ⟨hst, hsf, hslot, hbuf, hrd, hlim, hret⟩ := append_frame p.accCap w r
  exact ⟨h.acc.append hcap w, h.cursor.congr (by rw [hbuf, hrd, hlim, hret]),
    h.field.congr (by rw [hst, hsf, hslot])⟩

theorem slotAppend_cases (cap : Nat) (c : Nibble) (q : Word) (r : Receiver) :
    slotAppend cap c q r = r ∨ slotAppend cap c q r = append cap q r := by
  unfold slotAppend
  split
  · exact .inl rfl
  · split
    · exact .inr rfl
    · exact .inl rfl

/-- A data slot below slot 7, consumed inside a group (R164-R167). -/
theorem ReceiverOk.takeSlot {p : Params} {r : Receiver} (h : ReceiverOk p r) (hcap : 0 < p.accCap)
    (hg : inGroup r.st = true) (hslot : r.slot ≠ 7) (c : Nibble) (q : Word) :
    ReceiverOk p (takeSlot p.accCap c q r) := by
  have advanced {r' : Receiver} (h' : ReceiverOk p r') (hst : r'.st = r.st) (hs : r'.slot = r.slot) (st : RxState) :
      ReceiverOk p { advance r' with st := st } :=
    ⟨h'.acc.congr rfl, h'.cursor.congr rfl, h'.field.advance (hst ▸ hg) (hs ▸ hslot) st⟩
  unfold Machine.takeSlot
  rcases slotAppend_cases p.accCap c q r with e | e <;> rw [e]
  · exact advanced h rfl rfl _
  · obtain ⟨hst, -, hs, -⟩ := append_frame p.accCap q r
    exact advanced (h.append hcap q) hst hs _

/-- A TLP that has ended leaves its group where it was, with an empty accumulator (R170). -/
theorem ReceiverOk.complete {p : Params} {r : Receiver} (h : ReceiverOk p r) (hg : inGroup r.st = true) (st : RxState) :
    ReceiverOk p { Machine.accReset r with st := st } :=
  ⟨h.acc.accReset.congr rfl, h.cursor.accReset.congr rfl, h.accReset.field.setSt hg st⟩

/-! ### The receive cursor's operations -/

theorem ReceiverOk.emptyRead {s : State} (h : ReceiverOk s.cfg s.rx) : ReceiverOk s.cfg (emptyRead s).2.rx := by
  rcases emptyRead_cases s with ⟨-, e⟩ | ⟨-, -, e⟩ | ⟨-, hs, e⟩ <;> rw [e]
  · exact h
  · exact h.accReset.awaitStatus
  · exact ⟨h.acc.congr rfl, h.cursor.retry hs, h.field.congr rfl⟩

/-- A fetch keeps the receiver's invariant: a new buffer is inside its bounds, and the cursor moves only past a
word it has (R161). -/
theorem ReceiverOk.fetchRead {s : State} (feed : List ReadAnswer) (h : ReceiverOk s.cfg s.rx) :
    ReceiverOk s.cfg (fetchRead feed s).state.rx := by
  induction feed generalizing s with
  | nil => exact h
  | cons a rest ih =>
    unfold Machine.fetchRead
    simp only
    split
    · rename_i hlen
      have hload := h.cursor.loadBuffer (answerBytes_clip_length a)
      have hlt : 0 < (answerBytes (clipAnswer a)).length / 4 := by omega
      exact ⟨h.acc.congr rfl, hload.advance hlt, h.field.congr rfl⟩
    · have hempty : ReceiverOk s.cfg (emptyCursor s.rx) :=
        ⟨h.acc.congr rfl, h.cursor.emptyCursor, h.field.congr rfl⟩
      have hread :=
        ReceiverOk.emptyRead (s := (tookAnswer a rest s).setRx (emptyCursor (tookAnswer a rest s).rx)) hempty
      have hcfg := (emptyRead_frame ((tookAnswer a rest s).setRx (emptyCursor (tookAnswer a rest s).rx))).1
      split <;> rename_i s2 e <;> rw [e] at hread hcfg
      · exact hread
      · have hcfg : s2.cfg = s.cfg := hcfg
        rw [← hcfg]
        exact ih (hcfg ▸ hread)

theorem ReceiverOk.fetchWord {s : State} (h : ReceiverOk s.cfg s.rx) :
    ReceiverOk s.cfg (fetchWord s).state.rx := by
  by_cases hc : s.rx.rd = s.rx.lim
  · simpa [Machine.fetchWord, hc] using h.fetchRead s.rxFeed
  · rw [fetchWord_buffered hc]
    have hlt : s.rx.rd < s.rx.lim := lt_of_le_of_ne h.cursor.rd_le hc
    exact ⟨h.acc.congr rfl, h.cursor.advance hlt, h.field.congr rfl⟩

/-- Where a fetch leaves the receive state machine and the operation: a word or a wait leaves both where they
were; an outcome ends the operation, and the machine stays or goes back to AwaitingStatus (R161, R172, R173). -/
def FetchShape (s : State) (f : Fetch) : Prop :=
  match f with
  | .word _ t => t.rx.st = s.rx.st ∧ t.rx.slot = s.rx.slot ∧ t.ctl = s.ctl
  | .ended t => (t.rx.st = s.rx.st ∨ t.rx.st = .awaitingStatus) ∧ t.ctl = .idle
  | .waits t => t.rx.st = s.rx.st ∧ t.ctl = s.ctl

theorem ctlAfterRx_idle {c : Ctl} {r : Reply} (h : r ≠ .outOfSync) : ctlAfterRx c r = .idle := by
  simp [ctlAfterRx, h]

theorem fetchRead_shape {s0 s : State} (feed : List ReadAnswer) (hst : s.rx.st = s0.rx.st)
    (hslot : s.rx.slot = s0.rx.slot) (hctl : s.ctl = s0.ctl) : FetchShape s0 (fetchRead feed s) := by
  induction feed generalizing s with
  | nil => exact ⟨hst, hctl⟩
  | cons a rest ih =>
    unfold fetchRead
    simp only
    split
    · exact ⟨hst, hslot, hctl⟩
    · rcases emptyRead_cases ((tookAnswer a rest s).setRx (emptyCursor (tookAnswer a rest s).rx)) with
        ⟨-, e⟩ | ⟨-, -, e⟩ | ⟨-, -, e⟩ <;> rw [e]
      · exact ⟨.inl hst, ctlAfterRx_idle nofun⟩
      · exact ⟨.inr rfl, ctlAfterRx_idle nofun⟩
      · exact ih hst hslot hctl

theorem fetchWord_shape (s : State) : FetchShape s (fetchWord s) := by
  unfold fetchWord
  split
  · exact fetchRead_shape _ rfl rfl rfl
  · exact ⟨rfl, rfl, rfl⟩

/-! ## The machine and the dispatches of RX_DECODE -/

/-! ### The machine's invariant, by name -/

/-- What the invariant asks of a transaction: legal records, and as many data bytes as a write's count. -/
structure TxnOk (t : Txn) : Prop where
  recs : t.recs.all recLegal = true
  data : t.isWrite = true → t.data.length = t.cnt

/-- `State.Inv` with its parts named. -/
structure MachineOk (s : State) : Prop where
  params : s.cfg.wf
  rx : ReceiverOk s.cfg s.rx
  hostMem : Memory.wf s.hostMem
  complete : s.rx.st = .tlpComplete → inRx s.ctl = true
  noTxn : s.ctl ≠ .reg → s.txn = Txn.none
  txn : TxnOk s.txn

theorem machineOk_iff (s : State) : MachineOk s ↔ s.Inv := by
  constructor
  · rintro ⟨hp, hrx, hmem, hst, hno, hrecs, hdata⟩
    obtain ⟨hinv, hfield, hbuf⟩ := (receiverOk_iff _ _).mp hrx
    exact ⟨hp, hinv, hfield, hbuf, hmem, hst, hno, hrecs, hdata⟩
  · rintro ⟨hp, hinv, hfield, hbuf, hmem, hst, hno, hrecs, hdata⟩
    exact ⟨hp, (receiverOk_iff _ _).mpr ⟨hinv, hfield, hbuf⟩, hmem, hst, hno, hrecs, hdata⟩

theorem txnOk_none : TxnOk Txn.none := ⟨rfl, nofun⟩

theorem ne_reg_of_inRx {c : Ctl} (h : inRx c = true) : c ≠ .reg := by
  rintro rfl
  cases h

theorem MachineOk.accCap_pos {s : State} (h : MachineOk s) : 0 < s.cfg.accCap := lt_of_lt_of_le (by decide) h.params.1

/-- What the receiver does outside a register operation keeps the invariant when the receiver keeps its own. -/
theorem MachineOk.of_rxFrame {s t : State} (h : MachineOk s) (hc : s.ctl ≠ .reg) (hf : RxFrame s t)
    (hrx : ReceiverOk s.cfg t.rx) (hst : t.rx.st = .tlpComplete → inRx t.ctl = true) : MachineOk t := by
  obtain ⟨hcfg, -, htxn, -, -, -, hmem, -⟩ := hf
  have hnone : t.txn = Txn.none := htxn.trans (h.noTxn hc)
  exact ⟨hcfg ▸ h.params, hcfg ▸ hrx, hmem ▸ h.hostMem, hst, fun _ => hnone, hnone ▸ txnOk_none⟩

/-- What a register operation or a TLP_SEND does keeps the invariant when the transaction keeps its own. -/
theorem MachineOk.of_txFrame {s t : State} (h : MachineOk s) (hc : inRx s.ctl = false) (hf : TxFrame s t)
    (hno : t.ctl ≠ .reg → t.txn = Txn.none) (htxn : TxnOk t.txn) : MachineOk t := by
  obtain ⟨hcfg, hrx, -, -, hmem⟩ := hf
  refine ⟨hcfg ▸ h.params, by rw [hcfg, hrx]; exact h.rx, hmem ▸ h.hostMem, fun hst => ?_, hno, htxn⟩
  rw [hrx] at hst
  exact absurd (h.complete hst) (by simp [hc])

/-! ### Dispatches of RX_DECODE -/

/-- What a word can do where a status word is expected. -/
theorem takeStatus_cases (v : Word) (s : State) :
    (v = Lit.fillerWord ∧ takeStatus v s = s) ∨
      (markOf v = Lit.statusMarker ∧ takeStatus v s = s.setRx { s.rx with sf := v, slot := 0, st := .inData }) ∨
      (markOf v ≠ Lit.statusMarker ∧ takeStatus v s = emitRx .outOfSync (s.setRx (accReset s.rx))) := by
  unfold takeStatus
  split
  · rename_i hv; exact .inl ⟨hv, rfl⟩
  · split
    · rename_i hm; exact .inr (.inl ⟨hm, rfl⟩)
    · rename_i hm; exact .inr (.inr ⟨hm, rfl⟩)

section
variable {s : State} (h : MachineOk s) (hc : inRx s.ctl = true)
include h hc

/-- A fetch before a status word or a data slot. -/
theorem MachineOk.fetchWord (hst : s.rx.st ≠ .tlpComplete) : MachineOk (fetchWord s).state := by
  have hshape := fetchWord_shape s
  refine h.of_rxFrame (ne_reg_of_inRx hc) (fetchWord_frame s) h.rx.fetchWord fun hcomp => absurd hcomp ?_
  cases e : Machine.fetchWord s <;> rw [e] at hshape
  case word q t => exact hshape.1 ▸ hst
  case ended t =>
    rcases hshape.1 with hsame | hawait
    · exact hsame ▸ hst
    · show t.rx.st ≠ _
      rw [hawait]
      nofun
  case waits t => exact hshape.1 ▸ hst

/-- A word where a status word is expected (R162, R174). -/
theorem MachineOk.takeStatus (hst : s.rx.st = .awaitingStatus) (v : Word) : MachineOk (takeStatus v s) := by
  have hframe := takeStatus_frame v s
  have hreg := ne_reg_of_inRx hc
  rcases takeStatus_cases v s with ⟨-, e⟩ | ⟨hm, e⟩ | ⟨-, e⟩ <;> rw [e] at hframe ⊢
  · exact h
  · exact h.of_rxFrame hreg hframe (h.rx.acceptStatus hm) nofun
  · exact h.of_rxFrame hreg hframe h.rx.accReset fun hcomp => absurd (hst.symm.trans hcomp) nofun

theorem MachineOk.stepAwait (hst : s.rx.st = .awaitingStatus) : MachineOk (stepAwait s).state := by
  have hf := h.fetchWord hc (by rw [hst]; nofun)
  have hshape := fetchWord_shape s
  unfold Machine.stepAwait
  split <;> rename_i e <;> rw [e] at hf hshape
  · obtain ⟨hst', -, hctl⟩ := hshape
    exact MachineOk.takeStatus hf (hctl ▸ hc) (hst'.trans hst) _
  · exact hf
  · exact hf

/-- The end of a group, or a data slot (R163, R164, R166). -/
theorem MachineOk.consumeSlot (hst : s.rx.st = .inData ∨ s.rx.st = .inRemainder) (c : Nibble) :
    MachineOk (consumeSlot c s).state := by
  have hreg := ne_reg_of_inRx hc
  have hne : s.rx.st ≠ .tlpComplete := by rcases hst with e | e <;> rw [e] <;> nofun
  have hg : inGroup s.rx.st = true := by rcases hst with e | e <;> rw [e] <;> rfl
  have hf := h.fetchWord hc hne
  have hshape := fetchWord_shape s
  unfold Machine.consumeSlot
  split
  · exact h.of_rxFrame hreg (by simp [Tick.state, endGroup, RxFrame]) h.rx.awaitStatus nofun
  · rename_i hslot
    split <;> rename_i e <;> rw [e] at hf hshape
    · rename_i q s1
      obtain ⟨hst', hslot', hctl⟩ := hshape
      have hok : MachineOk s1 := hf
      have hc1 : inRx s1.ctl = true := hctl ▸ hc
      exact hok.of_rxFrame (ne_reg_of_inRx hc1) (by simp [Tick.state, RxFrame])
        (hok.rx.takeSlot hok.accCap_pos (hst' ▸ hg) (hslot' ▸ hslot) c q) fun _ => hc1
    · exact hf
    · exact hf

/-- The end of a TLP (R170). -/
theorem MachineOk.stepComplete (hst : s.rx.st = .tlpComplete) : MachineOk (stepComplete s) := by
  refine h.of_rxFrame (ne_reg_of_inRx hc) (by simp [Machine.stepComplete, RxFrame])
    (h.rx.complete (by rw [hst]; rfl) _) fun hcomp => ?_
  have hcomp : stateAfterComplete s.rx = .tlpComplete := hcomp
  unfold stateAfterComplete at hcomp
  split at hcomp <;> cases hcomp

theorem MachineOk.rxTick : MachineOk (rxTick s).state := by
  unfold Machine.rxTick
  split <;> rename_i hst
  · exact h.stepAwait hc hst
  · exact h.consumeSlot hc (.inl hst) _
  · exact h.consumeSlot hc (.inr hst) _
  · exact h.stepComplete hc hst

end

/-! ## Register request records -/

/-! ### The records of a checked call -/

/-- Bits of a field are bits of the word it is taken from. -/
theorem extractLsb'_of_extractLsb' {n : Nat} (x : BitVec n) (a k b m : Nat) (h : b + m ≤ k) :
    (x.extractLsb' a k).extractLsb' b m = x.extractLsb' (a + b) m := by
  ext i hi
  have hk : b + i < k := by omega
  simp [hk, Nat.add_assoc]

/-- Bits of a request record are bits of its bytes in wire order (R125). -/
theorem reqRec_extract (d0 d1 beLo beHi : Byte) (fa : Half) (cmd : Byte) (a k : Nat) :
    (reqRec d0 d1 beLo beHi fa cmd).extractLsb' a k =
      (d0 ++ d1 ++ beLo ++ beHi ++ fa.extractLsb' 8 8 ++ fa.extractLsb' 0 8 ++ cmd ++ Lit.recTrailer).extractLsb' a k :=
  rfl

section
variable (d0 d1 beLo beHi : Byte) (fa : Half) (cmd : Byte)

/-- The flagged address in a record (R125). -/
theorem reqRec_extract_address :
    (reqRec d0 d1 beLo beHi fa cmd).extractLsb' 28 2 = fa.extractLsb' 12 2 ∧
      (reqRec d0 d1 beLo beHi fa cmd).extractLsb' 16 1 = fa.extractLsb' 0 1 ∧
      (reqRec d0 d1 beLo beHi fa cmd).extractLsb' 30 2 = fa.extractLsb' 14 2 := by
  refine ⟨?_, ?_, ?_⟩ <;>
    simp (disch := omega) only [reqRec_extract, BitVec.extractLsb'_append_eq_of_le,
      BitVec.extractLsb'_append_eq_of_add_le, extractLsb'_of_extractLsb', Nat.reduceSub]

/-- The command byte and the trailer in a record (R125, R126). -/
theorem reqRec_extract_command :
    (reqRec d0 d1 beLo beHi fa cmd).extractLsb' 0 8 = Lit.recTrailer ∧
      (reqRec d0 d1 beLo beHi fa cmd).extractLsb' 10 6 = cmdBits cmd ∧
      (reqRec d0 d1 beLo beHi fa cmd).extractLsb' 8 2 = cmd.extractLsb' 0 2 := by
  refine ⟨?_, ?_, ?_⟩ <;>
    simp (disch := omega) only [reqRec_extract, cmdBits, BitVec.extractLsb'_append_eq_of_le,
      BitVec.extractLsb'_append_eq_of_add_le, BitVec.extractLsb'_eq_self, Nat.reduceSub]

/-- The data and enable bytes in a record (R125). -/
theorem reqRec_extract_data :
    (reqRec d0 d1 beLo beHi fa cmd).extractLsb' 32 32 = d0 ++ d1 ++ beLo ++ beHi ∧
      recByte (reqRec d0 d1 beLo beHi fa cmd) 0 = d0 ∧ recByte (reqRec d0 d1 beLo beHi fa cmd) 1 = d1 ∧
      recByte (reqRec d0 d1 beLo beHi fa cmd) 2 = beLo ∧ recByte (reqRec d0 d1 beLo beHi fa cmd) 3 = beHi := by
  refine ⟨?_, ?_, ?_, ?_, ?_⟩ <;>
    simp (disch := omega) only [recByte, reqRec_extract, BitVec.extractLsb'_append_eq_of_le,
      BitVec.extractLsb'_append_eq_of_add_le, BitVec.extractLsb'_eq_self, Nat.reduceSub, Nat.reduceMul]
end

/-- The region and address bits of a legal pair: bits 13..12 and 0 are clear, bits 15..14 name a region (R52,
R53, R122). -/
theorem flaggedAddr_bits {region : Half} {a : Nat} (hr : regionLegal region = true) (ha : a < 4096)
    (heven : a % 2 = 0) :
    (flaggedAddr region a).extractLsb' 12 2 = 0 ∧ (flaggedAddr region a).extractLsb' 0 1 = 0 ∧
      regionBitsOk ((flaggedAddr region a).extractLsb' 14 2) := by
  have bits (lo k : Nat) (h : a / 2 ^ lo % 2 ^ k = 0) : (BitVec.ofNat 16 a).extractLsb' lo k = 0 := by
    apply BitVec.eq_of_toNat_eq
    have ha16 : a % 65536 = a := by omega
    simpa [Nat.shiftRight_eq_div_pow, ha16] using h
  simp only [flaggedAddr, BitVec.extractLsb'_or, bits 12 2 (by omega), bits 0 1 (by omega),
    bits 14 2 (by omega)]
  simp only [regionLegal, Bool.or_eq_true, decide_eq_true_eq] at hr
  obtain (rfl | rfl) | rfl := hr <;> decide

/-- A legal channel below a command leaves the command's bits and is a channel flag (R126). -/
theorem command_bits {ch : Nat} (hc : channelLegal ch = true) :
    (cmdBits (Lit.cmdRead ||| BitVec.ofNat 8 ch) = cmdBits Lit.cmdRead ∧
        channelBitsOk ((Lit.cmdRead ||| BitVec.ofNat 8 ch).extractLsb' 0 2)) ∧
      cmdBits (Lit.cmdWrite ||| BitVec.ofNat 8 ch) = cmdBits Lit.cmdWrite ∧
        channelBitsOk ((Lit.cmdWrite ||| BitVec.ofNat 8 ch).extractLsb' 0 2) := by
  simp only [channelLegal, Bool.and_eq_true, decide_eq_true_eq] at hc
  obtain ⟨h1, h3⟩ := hc
  interval_cases ch <;> decide

/-- A record with the fixed bits, the read command and no data decodes to a register read (R125, R126). -/
theorem decodeRegReq_of_read {r : Rec} (hfixed : regReqFixedOk r = true)
    (hcmd : r.extractLsb' 10 6 = cmdBits Lit.cmdRead) (hdata : r.extractLsb' 32 32 = 0) :
    decodeRegReq r = .ok (.regRd (r.extractLsb' 30 2) (r.extractLsb' 17 11) (r.extractLsb' 8 2)) := by
  unfold decodeRegReq
  rw [if_pos hfixed, if_pos ⟨hcmd, hdata⟩]

/-- A record with the fixed bits and the write command decodes to a register write (R125, R126). -/
theorem decodeRegReq_of_write {r : Rec} (hfixed : regReqFixedOk r = true)
    (hcmd : r.extractLsb' 10 6 = cmdBits Lit.cmdWrite) :
    decodeRegReq r = .ok (.regWr (recByte r 0) (recByte r 1) (recByte r 2) (recByte r 3)
      (r.extractLsb' 30 2) (r.extractLsb' 17 11) (r.extractLsb' 8 2)) := by
  have hne : cmdBits Lit.cmdWrite ≠ cmdBits Lit.cmdRead := by decide
  unfold decodeRegReq
  rw [if_pos hfixed, if_neg fun h => hne (hcmd.symm.trans h.1), if_pos hcmd]

theorem recLegal_of_decode {r : Rec} {i : Instr} (h : decodeRegReq r = .ok i) : recLegal r = wellFormed i := by
  simp only [recLegal, h]

/-- The enable and data bytes a write record carries for an address fit together (R282). -/
theorem enableOk_write (addr x : Nat) (data : List Byte) :
    enableOk (writeEnable addr data.length x) (writeData addr data x) := by
  unfold writeEnable writeData
  split
  · exact .inl rfl
  · exact .inr ⟨rfl, rfl⟩

section
variable {region : Half} {a : Nat} (hr : regionLegal region = true) (ha : a < 4096) (heven : a % 2 = 0)
include hr ha heven

theorem regReqFixedOk_reqRec (d0 d1 beLo beHi cmd : Byte) :
    regReqFixedOk (reqRec d0 d1 beLo beHi (flaggedAddr region a) cmd) = true := by
  obtain ⟨h12, h0, -⟩ := flaggedAddr_bits hr ha heven
  obtain ⟨e28, e16, -⟩ := reqRec_extract_address d0 d1 beLo beHi (flaggedAddr region a) cmd
  obtain ⟨e0, -⟩ := reqRec_extract_command d0 d1 beLo beHi (flaggedAddr region a) cmd
  simp [regReqFixedOk, e28, e16, e0, h12, h0]

/-- Every read record of a legal call decodes to a well-formed register read (R126, R282). -/
theorem recLegal_readRec {ch : Nat} (hc : channelLegal ch = true) : recLegal (readRec region ch a) = true := by
  obtain ⟨-, -, hregion⟩ := flaggedAddr_bits hr ha heven
  obtain ⟨⟨hcmd, hch⟩, -⟩ := command_bits hc
  obtain ⟨-, -, e30⟩ := reqRec_extract_address 0 0 0 0 (flaggedAddr region a) (Lit.cmdRead ||| BitVec.ofNat 8 ch)
  obtain ⟨-, e10, e8⟩ := reqRec_extract_command 0 0 0 0 (flaggedAddr region a) (Lit.cmdRead ||| BitVec.ofNat 8 ch)
  obtain ⟨e32, -⟩ := reqRec_extract_data 0 0 0 0 (flaggedAddr region a) (Lit.cmdRead ||| BitVec.ofNat 8 ch)
  have hdec := decodeRegReq_of_read (regReqFixedOk_reqRec hr ha heven 0 0 0 0 _) (e10.trans hcmd) (e32.trans rfl)
  rw [readRec, recLegal_of_decode hdec, e30, e8, wellFormed, decide_eq_true hregion, decide_eq_true hch]
  rfl

/-- Every write record of a legal call whose pair meets the range decodes to a well-formed register write
(R126, R282, R283). -/
theorem recLegal_writeRec {ch addr : Nat} {data : List Byte} (hc : channelLegal ch = true)
    (hmeets : inRange addr data.length a = true ∨ inRange addr data.length (a + 1) = true) :
    recLegal (writeRec addr data region ch a) = true := by
  obtain ⟨-, -, hregion⟩ := flaggedAddr_bits hr ha heven
  obtain ⟨-, hcmd, hch⟩ := command_bits hc
  have hsome : someEnabled (writeEnable addr data.length a) (writeEnable addr data.length (a + 1)) :=
    hmeets.imp (fun h => if_pos h) (fun h => if_pos h)
  have hlo := enableOk_write addr a data
  have hhi := enableOk_write addr (a + 1) data
  unfold writeRec
  generalize Lit.cmdWrite ||| BitVec.ofNat 8 ch = cmd at *
  generalize writeData addr data a = d0 at *
  generalize writeData addr data (a + 1) = d1 at *
  generalize writeEnable addr data.length a = lo at *
  generalize writeEnable addr data.length (a + 1) = hi at *
  obtain ⟨-, -, e30⟩ := reqRec_extract_address d0 d1 lo hi (flaggedAddr region a) cmd
  obtain ⟨-, e10, e8⟩ := reqRec_extract_command d0 d1 lo hi (flaggedAddr region a) cmd
  obtain ⟨-, b0, b1, b2, b3⟩ := reqRec_extract_data d0 d1 lo hi (flaggedAddr region a) cmd
  have hdec := decodeRegReq_of_write (regReqFixedOk_reqRec hr ha heven d0 d1 lo hi _) (e10.trans hcmd)
  rw [recLegal_of_decode hdec, e30, e8, b0, b1, b2, b3, wellFormed, decide_eq_true hregion, decide_eq_true hch,
    decide_eq_true hlo, decide_eq_true hhi, decide_eq_true hsome]
  rfl
end

/-- The pairs of a call: even addresses, each meeting the range (R283). -/
theorem mem_pairs {addr cnt a : Nat} (hcnt : 0 < cnt) (h : a ∈ pairs addr cnt) :
    a % 2 = 0 ∧ a < addr + cnt ∧ (inRange addr cnt a = true ∨ inRange addr cnt (a + 1) = true) := by
  simp only [pairs, List.mem_map, List.mem_range] at h
  obtain ⟨k, hk, rfl⟩ := h
  simp only [inRange, Bool.and_eq_true, decide_eq_true_eq]
  omega

/-- The records built for a checked call are records the block may emit (R126, R281, R282). -/
theorem txnRecs_legal {t : Txn} (hr : regionLegal t.region = true) (hc : channelLegal t.ch = true)
    (hrange : t.addr + t.cnt ≤ Lit.regSpaceBytes) (hcnt : 0 < t.cnt)
    (hdata : t.isWrite = true → t.data.length = t.cnt) :
    (txnRecs t).all recLegal = true := by
  simp only [txnRecs, List.all_map, List.all_eq_true, Function.comp]
  intro a hmem
  obtain ⟨heven, hlt, hmeets⟩ := mem_pairs hcnt hmem
  have ha : a < 4096 := lt_of_lt_of_le hlt hrange
  split
  · rename_i hw
    exact recLegal_writeRec hr ha heven hc (by rwa [hdata hw])
  · exact recLegal_readRec hr ha heven hc

/-! ## Register transactions, the transmit path and running an operation -/

/-! ### Dispatches of a register transaction -/

/-- A dispatch that goes on with the same call: the operation, the operands, the records and what the result
goes to stay. -/
def SameCall (s t : State) : Prop :=
  t.ctl = s.ctl ∧ (t.txn.recs, t.txn.isWrite, t.txn.data, t.txn.cnt, t.txn.cont) =
    (s.txn.recs, s.txn.isWrite, s.txn.data, s.txn.cnt, s.txn.cont)

theorem SameCall.trans {s t u : State} (h : SameCall s t) (k : SameCall t u) : SameCall s u :=
  ⟨k.1.trans h.1, k.2.trans h.2⟩

theorem SameCall.txnOk {s t : State} (h : SameCall s t) (hs : TxnOk s.txn) : TxnOk t.txn := by
  obtain ⟨-, e⟩ := h
  simp only [Prod.mk.injEq] at e
  obtain ⟨hrecs, hw, hdata, hcnt, -⟩ := e
  exact ⟨hrecs ▸ hs.recs, fun hw' => by rw [hdata, hcnt]; exact hs.data (hw ▸ hw')⟩

theorem SameCall.cont {s t : State} (h : SameCall s t) : t.txn.cont = s.txn.cont := by
  obtain ⟨-, e⟩ := h
  simp only [Prod.mk.injEq] at e
  exact e.2.2.2.2

theorem finishTxn_sameCall (r : RegStatus) (s : State) : SameCall s (finishTxn r s) := ⟨rfl, rfl⟩

theorem transportWrite_sameCall (bs : List Byte) (s : State) : SameCall s (transportWrite bs s).2 := by
  rcases transportWrite_cases bs s with ⟨-, e⟩ | ⟨_, -, e⟩ <;> rw [e] <;> exact ⟨rfl, rfl⟩

theorem issueRecord_sameCall (r : Rec) (s : State) : SameCall s (issueRecord r s) := by
  have hw := transportWrite_sameCall s.txn.batch s
  rcases issueRecord_cases r s with ⟨-, e⟩ | ⟨-, ⟨s1, e1, e⟩ | ⟨s1, e1, e⟩⟩ <;> rw [e]
  · exact ⟨rfl, rfl⟩
  · rw [e1] at hw
    exact hw.trans ⟨rfl, rfl⟩
  · rw [e1] at hw
    exact hw.trans (finishTxn_sameCall _ _)

theorem afterIssue_sameCall (s : State) : SameCall s (afterIssue s) := by
  unfold afterIssue
  split <;> exact ⟨rfl, rfl⟩

theorem flushBatch_sameCall (s : State) : SameCall s (flushBatch s) := by
  have hw := transportWrite_sameCall s.txn.batch s
  rcases flushBatch_cases s with ⟨-, e⟩ | ⟨-, ⟨s1, e1, e⟩ | ⟨s1, e1, e⟩⟩ <;> rw [e]
  · exact afterIssue_sameCall s
  · rw [e1] at hw
    exact hw.trans (afterIssue_sameCall _)
  · rw [e1] at hw
    exact hw.trans (finishTxn_sameCall _ _)

theorem takeResponse_sameCall (a : Half) (dA dA1 : Byte) (s : State) : SameCall s (takeResponse a dA dA1 s) := by
  refine ⟨rfl, ?_⟩
  simp only [takeResponse, State.setTxn_txn]
  rw [place_frame]

theorem harvestTick_sameCall (s : State) : SameCall s (harvestTick s).state := by
  rcases harvestTick_cases s with ⟨_, _, -, e⟩ | ⟨-, -, e⟩ | ⟨-, -, e⟩ <;> rw [e]
  · exact takeResponse_sameCall _ _ _ _
  · rcases harvestRead_cases s with ⟨-, e⟩ | ⟨_, _, -, -, e⟩ | ⟨_, _, _, -, -, e⟩ <;> rw [e] <;> exact ⟨rfl, rfl⟩
  · exact finishTxn_sameCall _ _

/-- The argument checks keep the call and its operands; the records they build are legal (R281, R282). -/
theorem checkOperands_txnOk {s : State} (h : TxnOk s.txn) : TxnOk (checkOperands s).txn := by
  rcases checkOperands_cases s with ⟨-, e⟩ | ⟨-, -, -, e⟩ | ⟨-, -, -, -, e⟩ | ⟨hr, hc, hrange, hcnt, e⟩ <;> rw [e]
  · exact (finishTxn_sameCall _ s).txnOk h
  · exact (finishTxn_sameCall _ s).txnOk h
  · exact (finishTxn_sameCall _ s).txnOk h
  · exact ⟨txnRecs_legal hr hc hrange hcnt h.data, h.data⟩

theorem checkOperands_ctl (s : State) : (checkOperands s).ctl = s.ctl := by
  rcases checkOperands_cases s with ⟨-, e⟩ | ⟨-, -, -, e⟩ | ⟨-, -, -, -, e⟩ | ⟨-, -, -, -, e⟩ <;> rw [e] <;> rfl

theorem checkOperands_cont (s : State) : (checkOperands s).txn.cont = s.txn.cont := by
  rcases checkOperands_cases s with ⟨-, e⟩ | ⟨-, -, -, e⟩ | ⟨-, -, -, -, e⟩ | ⟨-, -, -, -, e⟩ <;> rw [e] <;> rfl

/-- The transaction's part of the invariant, with the operation it belongs to (R44). -/
structure TxnInv (s : State) : Prop where
  noTxn : s.ctl ≠ .reg → s.txn = Txn.none
  ok : TxnOk s.txn

theorem txnInv_of_none {s : State} (h : s.txn = Txn.none) : TxnInv s := ⟨fun _ => h, h ▸ txnOk_none⟩

theorem txnInv_startRead (addr cnt : Nat) (region : Half) (ch : Nat) (cont : Cont) (s : State) :
    TxnInv (startRead addr cnt region ch cont s) := ⟨fun h => absurd rfl h, rfl, nofun⟩

theorem txnInv_startWrite (addr : Nat) (data : List Byte) (region : Half) (ch : Nat) (cont : Cont) (s : State) :
    TxnInv (startWrite addr data region ch cont s) := ⟨fun h => absurd rfl h, rfl, fun _ => rfl⟩

/-- A transaction that ends is discarded, or the next of a sequence begins (R44, R152, R300-R302). -/
theorem finishPhase_txnInv (s : State) : TxnInv (finishPhase s) := by
  have hend (x : Session) : TxnInv (endSession x s) := txnInv_of_none rfl
  unfold finishPhase
  simp only
  split
  · exact txnInv_of_none rfl
  · split
    · exact txnInv_startWrite _ _ _ _ _ _
    · exact txnInv_of_none rfl
  · split
    · exact hend _
    · split
      · exact hend _
      · exact txnInv_startRead _ _ _ _ _ _
  · split
    · exact hend _
    · exact txnInv_startWrite _ _ _ _ _ _
  · split
    · exact hend _
    · exact hend _

/-- One dispatch of a transaction other than the checks and the end goes on with the same call. -/
theorem regTick_txnInv {s : State} (hc : s.ctl = .reg) (h : TxnOk s.txn) : TxnInv (regTick s).state := by
  have same {t : State} (hs : SameCall s t) : TxnInv t := ⟨fun hne => absurd (hs.1.trans hc) hne, hs.txnOk h⟩
  unfold regTick
  split
  · exact ⟨fun hne => absurd ((checkOperands_ctl s).trans hc) hne, checkOperands_txnOk h⟩
  · split
    · exact same (issueRecord_sameCall _ s)
    · exact same (flushBatch_sameCall s)
  · exact same ⟨rfl, rfl⟩
  · exact same (harvestTick_sameCall s)
  · exact finishPhase_txnInv s

theorem MachineOk.of_txnInv {s t : State} (h : MachineOk s) (hc : inRx s.ctl = false) (hf : TxFrame s t)
    (ht : TxnInv t) : MachineOk t := h.of_txFrame hc hf ht.noTxn ht.ok

/-! ### Every dispatch of an operation -/

theorem sendFrame_frame (s : State) :
    TxFrame s (sendFrame s) ∧ (sendFrame s).txn = s.txn ∧ (sendFrame s).ctl = .idle := by
  have hw := transportWrite_frame s.txFrame s
  rcases sendFrame_cases s with ⟨s1, e1, e⟩ | ⟨s1, e1, e⟩ <;> rw [e] <;> rw [e1] at hw <;>
    exact ⟨hw.1.trans' ⟨rfl, rfl, rfl, rfl, rfl⟩, hw.2, rfl⟩

/-- A TLP word framed (R225). -/
theorem MachineOk.sendWord {s : State} (h : MachineOk s) {ws : List Word} (hc : s.ctl = .send ws) (w : Word)
    (last : Bool) : MachineOk (sendWord w last s) :=
  h.of_txnInv (by rw [hc]; rfl) ⟨rfl, rfl, rfl, rfl, rfl⟩ (txnInv_of_none (h.noTxn (by rw [hc]; nofun)))

/-- One dispatch of the operation in progress keeps the invariant. -/
theorem MachineOk.tick {s : State} (h : MachineOk s) : MachineOk (tick s).state := by
  unfold Machine.tick
  split <;> rename_i hc
  · exact h
  · exact h.rxTick (by rw [hc]; rfl)
  · obtain ⟨hf, htxn, -⟩ := sendFrame_frame s
    exact h.of_txnInv (by rw [hc]; rfl) hf (txnInv_of_none (htxn.trans (h.noTxn (by rw [hc]; nofun))))
  · exact h.sendWord hc _ _
  · exact h.of_txnInv (by rw [hc]; rfl) (regTick_frame s) (regTick_txnInv hc h.txn)

theorem MachineOk.runOp {s : State} (h : MachineOk s) : MachineOk (runOp s) :=
  run_induct MachineOk (fun _ _ hs => hs.tick) _ s h

/-! ## The decoder by format -/

/-! ### What a packet can decode to, by its format -/

/-- Whatever a decoder answers has the property. -/
def Yields (P : Instr → Prop) (d : Except Reject Instr) : Prop := ∀ i, d = .ok i → P i

section
variable {P : Instr → Prop}

theorem yields_ok {i : Instr} (h : P i) : Yields P (.ok i) := by
  rintro _ ⟨⟩
  exact h

theorem yields_error (e : Reject) : Yields P (.error e) := nofun

theorem yields_bind {α : Type} (x : Except Reject α) {f : α → Except Reject Instr} (h : ∀ a, Yields P (f a)) :
    Yields P (x >>= f) := by
  cases x with
  | error e => exact yields_error e
  | ok a => exact h a

theorem yields_ite {c : Prop} [Decidable c] {d e : Except Reject Instr} (hd : Yields P d) (he : Yields P e) :
    Yields P (if c then d else e) := by
  split
  · exact hd
  · exact he

theorem yields_arity {k : Nat} {ops : List Nat} {d : Except Reject Instr} (h : Yields P d) :
    Yields P (arity k ops d) := yields_ite h (yields_error _)
end

/-- The units of the two transport streams, which no packet of the host command port spells (R50, R90, R91). -/
def isWireUnit (i : Instr) : Bool :=
  match i with
  | .status _ | .filler | .slotTlpData _ | .slotTlpLast _ | .slotNonTlp01 _ | .slotNonTlp10 _ | .slotNonTlp11 _ => true
  | .regresp _ _ _ | .regRd _ _ _ | .regWr _ _ _ _ _ _ _ | .txTlpWord _ | .txTlpLast _ => true
  | _ => false

/-- A host command's code spells a host operation (R150). -/
theorem decodeHostCmd_yields (code : Nat) (ops : List Nat) :
    Yields (fun i => isWireUnit i = false) (decodeHostCmd code ops) := by
  unfold decodeHostCmd
  refine yields_ite (yields_arity (yields_ok rfl)) <| yields_ite (yields_arity (yields_ok rfl)) <|
    yields_ite (yields_arity (yields_ok rfl)) <|
    yields_ite (yields_arity (yields_bind _ fun _ => yields_ok rfl)) <|
    yields_ite (yields_bind _ fun _ => yields_ok rfl) <|
    yields_ite (yields_arity (yields_bind _ fun _ => yields_ok rfl)) <|
    yields_ite (yields_bind _ fun _ => yields_bind _ fun _ => yields_ok rfl) <|
    yields_ite (yields_arity (yields_bind _ fun _ => yields_ok rfl)) <|
    yields_ite (yields_arity (yields_bind _ fun _ => yields_ok rfl)) <|
    yields_ite (yields_bind _ fun _ => yields_bind _ fun _ => yields_ok rfl) <|
    yields_ite (yields_arity (yields_ok rfl)) (yields_error _)

theorem decodeTlpFmt_not_wire (w : Word) : isWireUnit (decodeTlpFmt w) = false := by
  unfold decodeTlpFmt
  simp only
  split_ifs <;> rfl

theorem decodeTlpType_yields (w : Word) : Yields (fun i => isWireUnit i = false) (decodeTlpType w) := by
  unfold decodeTlpType
  repeat refine yields_ite (yields_ok rfl) ?_
  exact yields_error _

/-- A packet that the host command port takes spells no unit of the two streams (R50). -/
theorem decode_hostFormat_yields {p : Packet} (hp : isHostFormat p.fmt = true) :
    Yields (fun i => isWireUnit i = false) (decode p) := by
  obtain ⟨fmt, words⟩ := p
  cases fmt <;> cases hp
  case hostCmd =>
    cases words with
    | nil => exact yields_error _
    | cons code ops => exact decodeHostCmd_yields code ops
  case tlpFmt => exact yields_bind _ fun _ => yields_ok (decodeTlpFmt_not_wire _)
  case tlpType => exact yields_bind _ fun _ => decodeTlpType_yields _

/-- Where a status word is expected, a unit runs as a word taken there (R104, R162). -/
theorem decode_rxStatus_yields (ws : List Nat) :
    Yields (fun i => ∃ v, ∀ s, exec i s = .next (takeStatus v s)) (decode ⟨.rxStatus, ws⟩) :=
  yields_bind _ fun _ => yields_ite (yields_ok ⟨_, fun _ => rfl⟩) <|
    yields_ite (yields_ok ⟨_, fun _ => rfl⟩) (yields_error _)

/-- A slot class runs as that slot consumed (R103, R164). -/
theorem decode_slot_yields (ws : List Nat) :
    Yields (fun i => ∃ c, ∀ s, exec i s = withCursor s (consumeSlot c s).state) (decode ⟨.slot, ws⟩) := by
  refine yields_bind _ fun n => yields_ok ?_
  unfold decodeSlot
  split_ifs <;> exact ⟨_, fun _ => rfl⟩

/-- A register record runs as a record emitted (R125, R126, R284). -/
theorem decode_regReq_yields (ws : List Nat) :
    Yields (fun i => ∃ region ch r, ∀ s, exec i s = emitRegReq region ch r s) (decode ⟨.regReq, ws⟩) := by
  refine yields_bind _ fun n => yields_ite (yields_ite ?_ <| yields_ite ?_ (yields_error _)) (yields_error _)
  · exact yields_ok ⟨_, _, _, fun _ => rfl⟩
  · exact yields_ok ⟨_, _, _, fun _ => rfl⟩

/-- A response word runs as a response taken (R127, R287). -/
theorem decode_regResp_yields (ws : List Nat) :
    Yields (fun i => ∃ a dA dA1, ∀ s, exec i s = .next (takeResponse a dA dA1 s)) (decode ⟨.regResp, ws⟩) :=
  yields_bind _ fun _ => yields_ok ⟨_, _, _, fun _ => rfl⟩

/-- A transmit record runs as a word framed (R128, R225). -/
theorem decode_txTlp_yields (ws : List Nat) :
    Yields (fun i => ∃ w last, ∀ s, exec i s = .next (sendWord w last s)) (decode ⟨.txTlp, ws⟩) :=
  yields_bind _ fun _ => yields_ite (yields_ok ⟨_, _, fun _ => rfl⟩) <|
    yields_ite (yields_ok ⟨_, _, fun _ => rfl⟩) (yields_error _)

/-! ## Host operations, due units and a step -/

/-! ### Leader words -/

/-- The rows of a TLP leader word, by Fmt and by type group (R111, R112). -/
def isLeader (i : Instr) : Bool :=
  match i with
  | .fmt3dwNodata _ | .fmt4dwNodata _ | .fmt3dwData _ | .fmt4dwData _ => true
  | .fmtPrefix _ | .fmtRsvd101 _ | .fmtRsvd110 _ | .fmtRsvd111 _ => true
  | .mrd32 _ | .mrd64 _ | .mrdLk32 _ | .mrdLk64 _ | .mwr32 _ | .mwr64 _ | .iord _ | .iowr _ => true
  | .cfgRd0 _ | .cfgWr0 _ | .cfgRd1 _ | .cfgWr1 _ | .msg _ | .msgD _ => true
  | .cpl _ | .cplD _ | .cplLk _ | .cplDLk _ => true
  | .fetchAdd32 _ | .fetchAdd64 _ | .swap32 _ | .swap64 _ | .cas32 _ | .cas64 _ | .lprfx _ | .eprfx _ => true
  | _ => false

/-- Every leader word runs as the one operation `leader`, with the reply of its row (R231-R246). -/
theorem exec_of_isLeader {i : Instr} (h : isLeader i = true) : ∃ w r, ∀ s, exec i s = .next (leader w r s) := by
  cases i <;> cases h <;> exact ⟨_, _, fun _ => rfl⟩

/-! ### The meanings of the host operations keep the invariant -/

theorem withCursor_next {s t u : State} (h : withCursor s t = .next u) : u = t := by
  unfold withCursor at h
  split at h <;> cases h
  rfl

theorem leader_of_idle {s : State} (hc : s.ctl = .idle) (w : Word) (r : Reply) : leader w r s = deliver r s := by
  simp [leader, hc]

/-- TLP_ENCODE stores to the destination buffer alone, and a store keeps its canonical form (R224, R70). -/
theorem MachineOk.storeHostMem {s : State} (h : MachineOk s) (a : Nat) (bs : List Byte) :
    MachineOk { s with hostMem := Memory.store s.hostMem a bs } :=
  ⟨h.params, h.rx, Memory.store_wf _ _ _ h.hostMem, h.complete, h.noTxn, h.txn⟩

section
variable {s : State} (h : MachineOk s) (hc : s.ctl = .idle)
include h hc

theorem MachineOk.st_ne_of_idle : s.rx.st ≠ .tlpComplete := fun e => by
  have hrx := h.complete e
  rw [hc] at hrx
  cases hrx

/-- With no operation in progress there is no transaction, so whatever leaves the receiver alone and starts
none keeps the invariant. -/
theorem MachineOk.of_idle {t : State} (hf : TxFrame s t) (ht : t.txn = s.txn) : MachineOk t :=
  h.of_txnInv (by rw [hc]; rfl) hf (txnInv_of_none (ht.trans (h.noTxn (by rw [hc]; nofun))))

theorem MachineOk.deliver (r : Reply) : MachineOk (deliver r s) := h.of_idle hc ⟨rfl, rfl, rfl, rfl, rfl⟩ rfl

theorem MachineOk.setRx {r : Receiver} (hr : ReceiverOk s.cfg r) (hst : r.st ≠ .tlpComplete) :
    MachineOk (s.setRx r) :=
  h.of_rxFrame (by rw [hc]; nofun) (by simp [RxFrame]) hr fun e => absurd e hst

theorem MachineOk.discardBuffer : MachineOk (discardBuffer s) := h.setRx hc h.rx.discard (h.st_ne_of_idle hc)

theorem MachineOk.resetReceiver : MachineOk (s.setRx (resetReceiver s.rx)) := h.setRx hc h.rx.resetReceiver nofun

theorem MachineOk.startRx (again : Bool) : MachineOk (s.setCtl (.rx again)) :=
  h.of_rxFrame (by rw [hc]; nofun) (by simp [RxFrame]) h.rx fun _ => rfl

theorem MachineOk.startSend (ws : List Word) : MachineOk (startSend ws s) := by
  unfold Machine.startSend
  split <;> exact h.of_idle hc ⟨rfl, rfl, rfl, rfl, rfl⟩ rfl

theorem MachineOk.startRead (addr cnt : Nat) (region : Half) (ch : Nat) (cont : Cont) :
    MachineOk (startRead addr cnt region ch cont s) :=
  h.of_txnInv (by rw [hc]; rfl) ⟨rfl, rfl, rfl, rfl, rfl⟩ (txnInv_startRead _ _ _ _ _ _)

theorem MachineOk.startWrite (addr : Nat) (data : List Byte) (region : Half) (ch : Nat) (cont : Cont) :
    MachineOk (startWrite addr data region ch cont s) :=
  h.of_txnInv (by rw [hc]; rfl) ⟨rfl, rfl, rfl, rfl, rfl⟩ (txnInv_startWrite _ _ _ _ _ _)

theorem MachineOk.execTlpEncode {hd : Header} {cap : Nat} {t : State} (he : execTlpEncode hd cap s = .next t) :
    MachineOk t := by
  unfold Machine.execTlpEncode at he
  split at he <;> cases he
  · exact h.deliver hc _
  · exact (h.storeHostMem 0 _).deliver hc _

theorem MachineOk.execTlpSend {hd : Header} {tail : List Word} {t : State} (he : execTlpSend hd tail s = .next t) :
    MachineOk t := by
  unfold Machine.execTlpSend at he
  split at he
  · cases he
    exact h.deliver hc _
  · cases he
    exact h.deliver hc _
  · split at he <;> cases he
    · exact h.deliver hc _
    · exact (h.startSend hc _).runOp

/-- A host operation, or a leader word for the codec, from a state with no operation in progress. -/
theorem MachineOk.exec_idle {i : Instr} (hi : isWireUnit i = false) {t : State} (he : exec i s = .next t) :
    MachineOk t := by
  by_cases hl : isLeader i = true
  · obtain ⟨w, r, e⟩ := exec_of_isLeader hl
    rw [e, leader_of_idle hc] at he
    cases he
    exact h.deliver hc r
  · have hother : (isWireUnit i || isLeader i) = false := by simp [hi, hl]
    cases i
    case rxDecode => exact withCursor_next he ▸ (h.startRx hc false).runOp
    case rxNext => exact withCursor_next he ▸ (h.startRx hc true).runOp
    case rxDiscard => cases he; exact (h.discardBuffer hc).deliver hc _
    case rxResync => cases he; exact (h.discardBuffer hc).deliver hc _
    case rxReset => cases he; exact (h.resetReceiver hc).deliver hc _
    case tlpHdrlen => cases he; exact h.deliver hc _
    case tlpDecode => cases he; exact h.deliver hc _
    case cfgRegoff => cases he; exact h.deliver hc _
    case tlpEncode => exact h.execTlpEncode hc he
    case tlpSend => exact h.execTlpSend hc he
    case regRead => cases he; exact (h.startRead hc _ _ _ _ _).runOp
    case regRead8 => cases he; exact (h.startRead hc _ _ _ _ _).runOp
    case regClrbits8 => cases he; exact (h.startRead hc _ _ _ _ _).runOp
    case regWrite => cases he; exact (h.startWrite hc _ _ _ _ _).runOp
    case sessionInit => cases he; exact ((h.resetReceiver hc).startRead hc _ _ _ _ _).runOp
    all_goals cases hother
end

/-! ### A step keeps the invariant -/

/-- A packet taken from the port. -/
theorem MachineOk.takePort {s : State} (h : MachineOk s) (rest : List Packet) : MachineOk { s with port := rest } :=
  ⟨h.params, h.rx, h.hostMem, h.complete, h.noTxn, h.txn⟩

theorem MachineOk.serveHost {s t : State} (h : MachineOk s) (hc : s.ctl = .idle) (he : serveHost s = .next t) :
    MachineOk t := by
  unfold Machine.serveHost nextCommand at he
  cases hp : s.port with
  | nil =>
    simp only [hp] at he
    cases he
    exact h
  | cons p rest =>
    simp only [hp, runCommand] at he
    split at he
    · rename_i hfmt
      split at he
      · rename_i i hdec
        exact (h.takePort rest).exec_idle hc (decode_hostFormat_yields hfmt i hdec) he
      · cases he
    · cases he

/-- What is due keeps the invariant: an act leads to a state that has it, and running whatever a unit decodes
to leads to one. -/
def DueOk (d : Due) : Prop :=
  match d with
  | .unit p u => Yields (fun i => ∀ t, exec i u = .next t → MachineOk t) (decode p)
  | .act t => MachineOk t.state

theorem Yields.imp {P Q : Instr → Prop} {d : Except Reject Instr} (h : Yields P d) (k : ∀ i, P i → Q i) :
    Yields Q d := fun i e => k i (h i e)

theorem MachineOk.dueStatus {s : State} (h : MachineOk s) (hc : inRx s.ctl = true) (hst : s.rx.st = .awaitingStatus) :
    DueOk (dueStatus s) := by
  have hf := h.fetchWord hc (by rw [hst]; nofun)
  have hshape := fetchWord_shape s
  unfold Machine.dueStatus
  split <;> rename_i e <;> rw [e] at hf hshape
  · obtain ⟨hst', -, hctl⟩ := hshape
    refine (decode_rxStatus_yields _).imp fun i ⟨v, hv⟩ t he => ?_
    rw [hv] at he
    cases he
    exact MachineOk.takeStatus hf (hctl ▸ hc) (hst'.trans hst) v
  · exact hf
  · exact hf

theorem MachineOk.dueSlot {s : State} (h : MachineOk s) (hc : inRx s.ctl = true)
    (hst : s.rx.st = .inData ∨ s.rx.st = .inRemainder) : DueOk (dueSlot s) := by
  unfold Machine.dueSlot
  split
  · rename_i hslot
    have hend := h.consumeSlot hc hst 0
    rwa [Machine.consumeSlot, if_pos hslot] at hend
  · refine (decode_slot_yields _).imp fun i ⟨c, hexec⟩ t he => ?_
    rw [hexec] at he
    exact withCursor_next he ▸ h.consumeSlot hc hst c

/-- What is due inside RX_DECODE. -/
theorem MachineOk.dueRx {s : State} (h : MachineOk s) (hc : inRx s.ctl = true) : DueOk (dueRx s) := by
  unfold Machine.dueRx
  split <;> rename_i hst
  · exact h.dueStatus hc hst
  · exact h.dueSlot hc (.inl hst)
  · exact h.dueSlot hc (.inr hst)
  · exact h.stepComplete hc hst

/-- A dispatch that goes on with the same register call. -/
theorem MachineOk.of_sameCall {s t : State} (h : MachineOk s) (hc : s.ctl = .reg) (hf : TxFrame s t)
    (hs : SameCall s t) : MachineOk t :=
  h.of_txFrame (by rw [hc]; rfl) hf (fun hne => absurd (hs.1.trans hc) hne) (hs.txnOk h.txn)

theorem MachineOk.emitRegReq {s : State} (h : MachineOk s) (hc : s.ctl = .reg) {region ch : BitVec 2} {r : Rec}
    {t : State} (he : emitRegReq region ch r s = .next t) : MachineOk t := by
  unfold Machine.emitRegReq at he
  split at he <;> cases he
  · exact h.of_sameCall hc (issueRecord_frame r s) (issueRecord_sameCall r s)
  · exact h.of_sameCall hc ⟨rfl, rfl, rfl, rfl, rfl⟩ (finishTxn_sameCall _ s)

/-- What is due inside a register transaction: a record, a response word, or a phase's own act, which is the
operation's dispatch. -/
theorem MachineOk.dueReg {s : State} (h : MachineOk s) (hc : s.ctl = .reg) : DueOk (dueReg s) := by
  have htick : MachineOk (regTick s).state :=
    h.of_txnInv (by rw [hc]; rfl) (regTick_frame s) (regTick_txnInv hc h.txn)
  unfold Machine.dueReg
  unfold regTick at htick
  split <;> rename_i hphase <;> simp only [hphase] at htick
  · split <;> rename_i hrec <;> simp only [hrec] at htick
    · refine (decode_regReq_yields _).imp fun i ⟨region, ch, r, hexec⟩ t he => ?_
      rw [hexec] at he
      exact h.emitRegReq hc he
    · exact htick
  · split
    · refine (decode_regResp_yields _).imp fun i ⟨a, dA, dA1, hexec⟩ t he => ?_
      rw [hexec] at he
      cases he
      exact h.of_sameCall hc ⟨rfl, rfl, rfl, rfl, rfl⟩ (takeResponse_sameCall a dA dA1 s)
    · exact htick
  · exact htick
  · exact htick
  · exact htick

theorem MachineOk.due {s : State} (h : MachineOk s) : DueOk (due s) := by
  have htick := h.tick
  unfold Machine.due
  unfold Machine.tick at htick
  split <;> rename_i hc <;> simp only [hc] at htick
  · exact h
  · exact h.dueRx (by rw [hc]; rfl)
  · exact htick
  · refine (decode_txTlp_yields _).imp fun i ⟨w, last, hexec⟩ t he => ?_
    rw [hexec] at he
    cases he
    exact h.sendWord hc w last
  · exact h.dueReg hc

theorem MachineOk.resumeOp {s t : State} (h : MachineOk s) (he : resumeOp s = .next t) : MachineOk t := by
  have hdue := h.due
  unfold Machine.resumeOp runUnit at he
  split at he <;> rename_i e <;> rw [e] at hdue
  · split at he
    · rename_i i hdec
      exact hdue i hdec t he
    · cases he
      exact h.tick
  · cases he
    exact hdue

theorem MachineOk.step {s t : State} (h : MachineOk s) (he : step s = .next t) : MachineOk t := by
  unfold Machine.step at he
  split at he
  · cases he
  · split at he
    · split at he
      · exact h.serveHost ‹_› he
      · exact h.resumeOp he
    · cases he

/-- Settles O9. The invariant in its named parts (`MachineOk`) is kept by every dispatch of an operation, hence
by running one, by every host operation from a state with no operation in progress, and by every due unit. -/
theorem stepKeepsInvariant : Obligations.StepKeepsInvariant := by
  intro s t h he
  exact (machineOk_iff t).mp (((machineOk_iff s).mpr h).step he)

/-! ## The host command port and reset -/

/-! ### The host command port and reset -/

/-- With no operation in progress, no Fatal session and a legal cursor, a step serves the host. -/
theorem step_of_idle {s : State} (hh : hasHalted s = false) (hcur : cursorOk s.rx = true) (hc : s.ctl = .idle) :
    step s = serveHost s := by
  simp [step, hh, hcur, hc]

theorem serveHost_cons {s : State} {p : Packet} {rest : List Packet} (hp : s.port = p :: rest) :
    serveHost s = runCommand p { s with port := rest } := by
  simp [serveHost, nextCommand, hp]

theorem runCommand_of_decode {p : Packet} {i : Instr} (hf : isHostFormat p.fmt = true) (hd : decode p = .ok i)
    (s : State) : runCommand p s = exec i s := by
  simp [runCommand, hf, hd]

/-- Settles O5: the step serves the host, and serving it takes the packet and runs what it decodes to. -/
theorem stepRunsHostCommand : Obligations.StepRunsHostCommand := by
  intro s p rest i hh hcur hc hp hf hd
  calc step s = serveHost s := step_of_idle hh hcur hc
    _ = runCommand p { s with port := rest } := serveHost_cons hp
    _ = exec i { s with port := rest } := runCommand_of_decode hf hd _

theorem receiverOk_reset : ReceiverOk Params.reference (Receiver.reset Params.reference.accCap) where
  acc := ⟨Nat.zero_le _, List.length_replicate, fun _ => .inl rfl, fun _ => ⟨rfl, rfl, rfl⟩, nofun, le_rfl⟩
  cursor := ⟨le_rfl, Nat.zero_le _, nofun, Memory.wf_reset.1, nofun⟩
  field := fieldOk_of_awaiting (Nat.zero_le _) rfl

theorem machineOk_reset : MachineOk State.reset where
  params := by decide
  rx := receiverOk_reset
  hostMem := Memory.wf_reset.2
  complete := nofun
  noTxn _ := rfl
  txn := txnOk_none

/-- Settles O10: the invariant part by part, and the values of R60 by the definition of the reset state. -/
theorem resetState : Obligations.ResetState :=
  ⟨(machineOk_iff _).mp machineOk_reset, rfl, rfl, rfl, rfl, rfl, rfl, rfl, rfl, rfl, rfl, rfl, rfl, rfl⟩

/-! ## The session -/

/-! ### The operations on a state with another session

Each shared operation, on a state with its session replaced, does what it does on the state, and the session
of its next state is the replaced one. -/

/-- A dispatch with its state changed. -/
def Tick.map (f : State → State) (t : Tick) : Tick :=
  match t with
  | .go s => .go (f s)
  | .waits s => .waits (f s)

/-- A fetch with its state changed. -/
def Fetch.map (f : State → State) (t : Fetch) : Fetch :=
  match t with
  | .word q s => .word q (f s)
  | .ended s => .ended (f s)
  | .waits s => .waits (f s)

@[simp] theorem Tick.state_map (f : State → State) (t : Tick) : (t.map f).state = f t.state := by
  cases t <;> rfl

theorem setSession_ite (c : Prop) [Decidable c] (s t : State) (x : Session) :
    (if c then s else t).setSession x = if c then s.setSession x else t.setSession x :=
  apply_ite (State.setSession · x) c s t

section
variable (s : State) (x : Session)

theorem emptyRead_setSession :
    emptyRead (s.setSession x) = ((emptyRead s).1, (emptyRead s).2.setSession x) := by
  rcases emptyRead_cases s with ⟨hn, e⟩ | ⟨hn, hr, e⟩ | ⟨hn, hr, e⟩ <;> rw [e] <;> simp [emptyRead, *] <;> rfl

theorem fetchRead_setSession (feed : List ReadAnswer) :
    fetchRead feed (s.setSession x) = (fetchRead feed s).map fun t => t.setSession x := by
  induction feed generalizing s with
  | nil => rfl
  | cons a rest ih =>
    have hread := emptyRead_setSession ((tookAnswer a rest s).setRx (emptyCursor (tookAnswer a rest s).rx)) x
    have hstate : (tookAnswer a rest (s.setSession x)).setRx (emptyCursor (tookAnswer a rest (s.setSession x)).rx) =
      ((tookAnswer a rest s).setRx (emptyCursor (tookAnswer a rest s).rx)).setSession x := rfl
    unfold fetchRead
    simp only
    split
    · rfl
    · rw [hstate, hread]
      cases e : emptyRead ((tookAnswer a rest s).setRx (emptyCursor (tookAnswer a rest s).rx)) with
      | mk ended s2 =>
        cases ended
        · exact ih s2
        · rfl

theorem fetchWord_setSession : fetchWord (s.setSession x) = (fetchWord s).map fun t => t.setSession x := by
  by_cases hc : s.rx.rd = s.rx.lim
  · simpa [fetchWord, hc] using fetchRead_setSession s x s.rxFeed
  · rw [fetchWord_buffered hc, fetchWord_buffered (s := s.setSession x) hc]
    rfl

theorem takeStatus_setSession (v : Word) : takeStatus v (s.setSession x) = (takeStatus v s).setSession x := by
  unfold takeStatus
  split
  · rfl
  · split <;> rfl

theorem stepAwait_setSession : stepAwait (s.setSession x) = (stepAwait s).map fun t => t.setSession x := by
  unfold stepAwait
  rw [fetchWord_setSession]
  cases fetchWord s with
  | word q t => exact congrArg Tick.go (takeStatus_setSession t x _)
  | ended t => rfl
  | waits t => rfl

theorem consumeSlot_setSession (c : Nibble) :
    consumeSlot c (s.setSession x) = (consumeSlot c s).map fun t => t.setSession x := by
  unfold consumeSlot
  rw [fetchWord_setSession, State.setSession_rx]
  split
  · rfl
  · cases fetchWord s <;> rfl

theorem rxTick_setSession : rxTick (s.setSession x) = (rxTick s).map fun t => t.setSession x := by
  unfold rxTick
  rw [State.setSession_rx]
  split
  · exact stepAwait_setSession s x
  · exact consumeSlot_setSession s x _
  · exact consumeSlot_setSession s x _
  · rfl

theorem transportWrite_setSession (bs : List Byte) :
    transportWrite bs (s.setSession x) = ((transportWrite bs s).1, (transportWrite bs s).2.setSession x) := by
  have hnext : nextWrite (s.setSession x) = nextWrite s := rfl
  unfold transportWrite
  rw [hnext]
  cases nextWrite s <;> rfl

theorem sendFrame_setSession : sendFrame (s.setSession x) = (sendFrame s).setSession x := by
  unfold sendFrame
  rw [State.setSession_txFrame, transportWrite_setSession]
  obtain ⟨ok, t⟩ := transportWrite s.txFrame s
  cases ok <;> rfl

theorem issueRecord_setSession (r : Rec) : issueRecord r (s.setSession x) = (issueRecord r s).setSession x := by
  unfold issueRecord
  rw [State.setSession_txn, State.setSession_cfg, transportWrite_setSession]
  obtain ⟨ok, t⟩ := transportWrite s.txn.batch s
  split
  · cases ok <;> rfl
  · rfl

theorem afterIssue_setSession : afterIssue (s.setSession x) = (afterIssue s).setSession x := by
  unfold afterIssue
  rw [State.setSession_txn]
  split <;> rfl

theorem flushBatch_setSession : flushBatch (s.setSession x) = (flushBatch s).setSession x := by
  unfold flushBatch
  rw [State.setSession_txn, transportWrite_setSession]
  obtain ⟨ok, t⟩ := transportWrite s.txn.batch s
  split
  · exact afterIssue_setSession s x
  · cases ok
    · rfl
    · exact afterIssue_setSession t x

theorem checkOperands_setSession : checkOperands (s.setSession x) = (checkOperands s).setSession x := by
  simp only [checkOperands, State.setSession_txn, setSession_ite]
  rfl

theorem harvestRead_setSession : harvestRead (s.setSession x) = (harvestRead s).map fun t => t.setSession x := by
  unfold harvestRead transportRead
  rw [State.setSession_rxFeed]
  cases s.rxFeed with
  | nil => rfl
  | cons a rest => cases a <;> rfl

theorem harvestTick_setSession : harvestTick (s.setSession x) = (harvestTick s).map fun t => t.setSession x := by
  unfold harvestTick
  rw [State.setSession_txn, State.setSession_cfg, harvestRead_setSession]
  split
  · rfl
  · split <;> rfl

end

/-! ### Running an operation other than SESSION_INIT -/

/-- The result of a transaction goes to SESSION_INIT (R300-R302). -/
def isSessionCont (c : Cont) : Bool :=
  match c with
  | .sessVersion | .sessFilterRead | .sessFilterWrite => true
  | .host | .clrBits _ _ _ => false

/-- No SESSION_INIT is in progress. -/
def NoSessionInit (s : State) : Prop := s.ctl = .reg → isSessionCont s.txn.cont = false

theorem finishPhase_setSession (s : State) (x : Session) (h : isSessionCont s.txn.cont = false) :
    finishPhase (s.setSession x) = (finishPhase s).setSession x := by
  unfold finishPhase
  simp only [State.setSession_txn]
  split <;> rename_i hcont <;> simp only [hcont, isSessionCont] at h
  · rfl
  · rw [setSession_ite]
    rfl
  all_goals cases h

/-- After the end of a transaction that was none of SESSION_INIT's, none is in progress: a write that follows it
is `reg.clrbits8`'s, whose result goes to the host (R152). -/
theorem finishPhase_noSessionInit {s : State} (h : isSessionCont s.txn.cont = false) :
    NoSessionInit (finishPhase s) := by
  intro _
  unfold finishPhase
  simp only
  split <;> rename_i hcont <;> simp only [hcont, isSessionCont] at h
  · rfl
  · split <;> rfl
  all_goals cases h

theorem regTick_setSession (s : State) (x : Session) (h : isSessionCont s.txn.cont = false) :
    regTick (s.setSession x) = (regTick s).map fun t => t.setSession x := by
  unfold regTick
  rw [State.setSession_txn]
  split
  · exact congrArg Tick.go (checkOperands_setSession s x)
  · split
    · exact congrArg Tick.go (issueRecord_setSession s x _)
    · exact congrArg Tick.go (flushBatch_setSession s x)
  · rfl
  · exact harvestTick_setSession s x
  · exact congrArg Tick.go (finishPhase_setSession s x h)

theorem regTick_noSessionInit {s : State} (h : isSessionCont s.txn.cont = false) :
    NoSessionInit (regTick s).state := by
  have same {t : State} (hs : SameCall s t) : NoSessionInit t := fun _ => hs.cont ▸ h
  unfold regTick
  split
  · exact fun _ => checkOperands_cont s ▸ h
  · split
    · exact same (issueRecord_sameCall _ s)
    · exact same (flushBatch_sameCall s)
  · exact same ⟨rfl, rfl⟩
  · exact same (harvestTick_sameCall s)
  · exact finishPhase_noSessionInit h

theorem tick_setSession (s : State) (x : Session) (h : NoSessionInit s) :
    tick (s.setSession x) = (tick s).map fun t => t.setSession x := by
  unfold tick
  rw [State.setSession_ctl]
  split <;> rename_i hc
  · rfl
  · exact rxTick_setSession s x
  · exact congrArg Tick.go (sendFrame_setSession s x)
  · rfl
  · exact regTick_setSession s x (h hc)

theorem ctlAfterRx_ne_reg (c : Ctl) (r : Reply) : ctlAfterRx c r ≠ .reg := by
  unfold ctlAfterRx
  split <;> nofun

theorem takeStatus_ctl_ne_reg {s : State} (hc : s.ctl ≠ .reg) (v : Word) : (takeStatus v s).ctl ≠ .reg := by
  rcases takeStatus_cases v s with ⟨-, e⟩ | ⟨-, e⟩ | ⟨-, e⟩ <;> rw [e]
  · exact hc
  · exact hc
  · exact ctlAfterRx_ne_reg _ _

theorem consumeSlot_ctl_ne_reg {s : State} (hc : s.ctl ≠ .reg) (c : Nibble) :
    (consumeSlot c s).state.ctl ≠ .reg := by
  have hshape := fetchWord_shape s
  unfold consumeSlot
  split
  · exact hc
  · split <;> rename_i e <;> rw [e] at hshape
    · exact hshape.2.2 ▸ hc
    · exact fun hreg => absurd (hshape.2.symm.trans hreg) nofun
    · exact hshape.2 ▸ hc

/-- A dispatch inside RX_DECODE starts no register transaction. -/
theorem rxTick_ctl_ne_reg {s : State} (hc : s.ctl ≠ .reg) : (rxTick s).state.ctl ≠ .reg := by
  have hshape := fetchWord_shape s
  unfold rxTick
  split
  · unfold stepAwait
    split <;> rename_i e <;> rw [e] at hshape
    · exact takeStatus_ctl_ne_reg (hshape.2.2 ▸ hc) _
    · exact fun hreg => absurd (hshape.2.symm.trans hreg) nofun
    · exact hshape.2 ▸ hc
  · exact consumeSlot_ctl_ne_reg hc _
  · exact consumeSlot_ctl_ne_reg hc _
  · exact ctlAfterRx_ne_reg _ _

theorem tick_noSessionInit {s : State} (h : NoSessionInit s) : NoSessionInit (tick s).state := by
  unfold tick
  split <;> rename_i hc
  · exact h
  · exact fun hreg => absurd hreg (rxTick_ctl_ne_reg (by rw [hc]; nofun))
  · obtain ⟨-, -, hidle⟩ := sendFrame_frame s
    exact fun hreg => absurd (hidle.symm.trans hreg) nofun
  · intro hreg
    have hsend : sendRest s.ctl = .reg := hreg
    rw [hc] at hsend
    cases hsend
  · exact regTick_noSessionInit (h hc)

theorem run_setSession (n : Nat) (s : State) (x : Session) (h : NoSessionInit s) :
    run n (s.setSession x) = (run n s).setSession x := by
  induction n generalizing s with
  | zero => rfl
  | succ n ih =>
    have hnext := tick_noSessionInit h
    unfold run
    rw [State.setSession_ctl, tick_setSession s x h]
    split
    · rfl
    · cases e : tick s with
      | waits t => rfl
      | go t =>
        rw [e] at hnext
        exact ih t hnext

theorem runOp_setSession {s : State} (x : Session) (h : NoSessionInit s) :
    runOp (s.setSession x) = (runOp s).setSession x := run_setSession _ s x h

/-! ### Every instruction but SESSION_INIT -/

section
variable (s : State) (x : Session)

theorem withCursor_setSession (t : State) :
    withCursor (s.setSession x) (t.setSession x) = mapNext (fun u => u.setSession x) (withCursor s t) := by
  unfold withCursor
  rw [State.setSession_rx]
  split <;> rfl

theorem leader_setSession (w : Word) (r : Reply) : leader w r (s.setSession x) = (leader w r s).setSession x := by
  unfold leader
  rw [State.setSession_ctl]
  split <;> rfl

/-- The receive loop started and run. -/
theorem runRx_setSession (again : Bool) :
    withCursor (s.setSession x) (runOp ((s.setSession x).setCtl (.rx again))) =
      mapNext (fun u => u.setSession x) (withCursor s (runOp (s.setCtl (.rx again)))) := by
  have hrun : runOp ((s.setSession x).setCtl (.rx again)) = (runOp (s.setCtl (.rx again))).setSession x :=
    runOp_setSession (s := s.setCtl (.rx again)) x nofun
  rw [hrun, withCursor_setSession]

/-- A register operation of the host started and run. -/
theorem runTxn_setSession {s : State} (hcont : isSessionCont s.txn.cont = false) :
    Host.Outcome.next (ρ := Refusal) (φ := Fault) (runOp (s.setSession x)) =
      mapNext (fun u => u.setSession x) (.next (runOp s)) :=
  congrArg Host.Outcome.next (runOp_setSession x fun _ => hcont)

theorem execSlot_setSession (c : Nibble) :
    withCursor (s.setSession x) (consumeSlot c (s.setSession x)).state =
      mapNext (fun u => u.setSession x) (withCursor s (consumeSlot c s).state) := by
  rw [consumeSlot_setSession, Tick.state_map, withCursor_setSession]

theorem execTlpEncode_setSession (h : Header) (cap : Nat) :
    execTlpEncode h cap (s.setSession x) = mapNext (fun u => u.setSession x) (execTlpEncode h cap s) := by
  unfold execTlpEncode
  split <;> rfl

theorem startSend_setSession (ws : List Word) : startSend ws (s.setSession x) = (startSend ws s).setSession x := by
  unfold startSend
  rw [State.setSession_cfg]
  split <;> rfl

theorem startSend_noSessionInit (ws : List Word) : NoSessionInit (startSend ws s) := by
  unfold startSend
  split <;> nofun

theorem execTlpSend_setSession (h : Header) (tail : List Word) :
    execTlpSend h tail (s.setSession x) = mapNext (fun u => u.setSession x) (execTlpSend h tail s) := by
  unfold execTlpSend
  split
  · rfl
  · rfl
  · split
    · rfl
    · rw [startSend_setSession, runOp_setSession x (startSend_noSessionInit s _)]
      rfl

theorem emitRegReq_setSession (region ch : BitVec 2) (r : Rec) :
    emitRegReq region ch r (s.setSession x) = mapNext (fun u => u.setSession x) (emitRegReq region ch r s) := by
  unfold emitRegReq
  rw [issueRecord_setSession]
  split <;> rfl

end

/-- Settles O60. Only the end of a transaction of SESSION_INIT writes the session (`finishPhase_setSession`), no
operation of another instruction comes to one (`tick_noSessionInit`), and nothing that `exec` runs reads it. -/
theorem sessionIsOpaque : Obligations.SessionIsOpaque := by
  intro i s x hi
  by_cases hl : isLeader i = true
  · obtain ⟨w, r, e⟩ := exec_of_isLeader hl
    rw [e, e, leader_setSession]
    rfl
  · cases i
    case rxDecode => exact runRx_setSession s x false
    case rxNext => exact runRx_setSession s x true
    case rxDiscard => rfl
    case rxResync => rfl
    case rxReset => rfl
    case tlpHdrlen => rfl
    case tlpDecode => rfl
    case cfgRegoff => rfl
    case tlpEncode => exact execTlpEncode_setSession s x _ _
    case tlpSend => exact execTlpSend_setSession s x _ _
    case regRead addr cnt region ch => exact runTxn_setSession (s := startRead addr cnt region ch .host s) x rfl
    case regRead8 a region => exact runTxn_setSession (s := startRead a 1 region s.cfg.regCh .host s) x rfl
    case regClrbits8 a m region =>
      exact runTxn_setSession (s := startRead a 1 region s.cfg.regCh (.clrBits a m region) s) x rfl
    case regWrite addr data region ch => exact runTxn_setSession (s := startWrite addr data region ch .host s) x rfl
    case sessionInit => exact absurd rfl hi
    case status => exact congrArg Host.Outcome.next (takeStatus_setSession s x _)
    case filler => exact congrArg Host.Outcome.next (takeStatus_setSession s x _)
    case slotTlpData => exact execSlot_setSession s x _
    case slotTlpLast => exact execSlot_setSession s x _
    case slotNonTlp01 => exact execSlot_setSession s x _
    case slotNonTlp10 => exact execSlot_setSession s x _
    case slotNonTlp11 => exact execSlot_setSession s x _
    case regresp => rfl
    case regRd => exact emitRegReq_setSession s x _ _ _
    case regWr => exact emitRegReq_setSession s x _ _ _
    case txTlpWord => rfl
    case txTlpLast => rfl
    all_goals exact absurd rfl hl

end Sys2Proof.Machine
end

section
/-! SUPPORT. The proofs of the family of spec/20_memory.md: the parameters, the histories of the ports, the
destination buffer and the transmit stream. -/

namespace Sys2Proof.Machine

/-! ## What an instruction runs, and what a step dispatches -/

/-! ### Changes inside the block -/

/-- Only what the block holds of its own differs: the parameters, the ports and the destination buffer are those
before. -/
def OwnChange (s t : State) : Prop :=
  ∃ r x n c bs d, t = { s with rx := r, session := x, txn := n, ctl := c, txFrame := bs, draws := d }

theorem ownChange_setRx (s : State) (r : Receiver) : OwnChange s (s.setRx r) := ⟨_, _, _, _, _, _, rfl⟩
theorem ownChange_setTxn (s : State) (n : Txn) : OwnChange s (s.setTxn n) := ⟨_, _, _, _, _, _, rfl⟩
theorem ownChange_setCtl (s : State) (c : Ctl) : OwnChange s (s.setCtl c) := ⟨_, _, _, _, _, _, rfl⟩
theorem ownChange_setSession (s : State) (x : Session) : OwnChange s (s.setSession x) := ⟨_, _, _, _, _, _, rfl⟩
theorem ownChange_setFrame (s : State) (bs : List Byte) : OwnChange s (s.setFrame bs) := ⟨_, _, _, _, _, _, rfl⟩
theorem ownChange_dropTxn (s : State) : OwnChange s (dropTxn s) := ⟨_, _, _, _, _, _, rfl⟩

theorem OwnChange.trans {s t u : State} (h : OwnChange s t) (k : OwnChange t u) : OwnChange s u := by
  obtain ⟨_, _, _, _, _, _, rfl⟩ := h
  obtain ⟨_, _, _, _, _, _, rfl⟩ := k
  exact ⟨_, _, _, _, _, _, rfl⟩

theorem ownChange_startRead (addr cnt : Nat) (region : Half) (ch : Nat) (cont : Cont) (s : State) :
    OwnChange s (startRead addr cnt region ch cont s) := ⟨_, _, _, _, _, _, rfl⟩

theorem ownChange_startWrite (addr : Nat) (data : List Byte) (region : Half) (ch : Nat) (cont : Cont) (s : State) :
    OwnChange s (startWrite addr data region ch cont s) := ⟨_, _, _, _, _, _, rfl⟩

theorem ownChange_startSend (ws : List Word) (s : State) : OwnChange s (startSend ws s) := by
  unfold startSend
  split <;> exact (ownChange_setFrame s _).trans (ownChange_setCtl _ _)

theorem ownChange_sendWord (w : Word) (last : Bool) (s : State) : OwnChange s (sendWord w last s) :=
  (ownChange_setFrame s _).trans (ownChange_setCtl _ _)

/-! ### Every instruction -/

/-- What running the instruction `i` can be: a change inside the block, alone or with an outcome; TLP_ENCODE's
store; a word where a status word is expected; a data slot; a record emitted; or an operation begun and run, which
is a receive operation unless `i` may send. -/
inductive Ran (i : Instr) (s : State) : State → Prop where
  | own {t : State} (h : OwnChange s t) : Ran i s t
  | replied {u : State} (r : Reply) (h : OwnChange s u) : Ran i s (deliver r u)
  | encoded {hd : Header} {cap : Nat} (m : Memory) (r : Reply) (h : i = .tlpEncode hd cap) :
      Ran i s (deliver r { s with hostMem := m })
  | status (v : Word) : Ran i s (takeStatus v s)
  | slot (c : Nibble) : Ran i s (consumeSlot c s).state
  | emitted (r : Rec) (h : maySend i = true) : Ran i s (issueRecord r s)
  | ran {u : State} (h : OwnChange s u) (hu : maySend i = true ∨ inRx u.ctl = true) : Ran i s (runOp u)

section
variable {i : Instr} {s t : State}

theorem ran_leader (w : Word) (r : Reply) : Ran i s (leader w r s) := by
  unfold leader
  split
  · exact .own (ownChange_setRx s _)
  · exact .replied r (ownChange_setRx s s.rx)

theorem ran_tlpEncode {hd : Header} {cap : Nat} (he : execTlpEncode hd cap s = .next t) :
    Ran (.tlpEncode hd cap) s t := by
  unfold execTlpEncode at he
  split at he <;> cases he
  · exact .encoded s.hostMem _ rfl
  · exact .encoded _ _ rfl

theorem ran_tlpSend {hd : Header} {tail : List Word} (he : execTlpSend hd tail s = .next t) :
    Ran (.tlpSend hd tail) s t := by
  have refused (r : Reply) : Ran (.tlpSend hd tail) s (deliver r s) := .replied r (ownChange_setRx s s.rx)
  unfold execTlpSend at he
  split at he
  · cases he; exact refused _
  · cases he; exact refused _
  · split at he <;> cases he
    · exact refused _
    · exact .ran (ownChange_startSend _ s) (.inl rfl)

theorem ran_regReq {region ch : BitVec 2} {r : Rec} (hi : maySend i = true)
    (he : emitRegReq region ch r s = .next t) : Ran i s t := by
  unfold emitRegReq at he
  split at he <;> cases he
  · exact .emitted r hi
  · exact .own (ownChange_setTxn s _)

/-- Every instruction runs as one of the shapes of `Ran`. -/
theorem exec_ran (he : exec i s = .next t) : Ran i s t := by
  by_cases hl : isLeader i = true
  · obtain ⟨w, r, e⟩ := exec_of_isLeader hl
    cases (e s).symm.trans he
    exact ran_leader w r
  · cases i
    case rxDecode => exact withCursor_next he ▸ .ran (ownChange_setCtl s _) (.inr rfl)
    case rxNext => exact withCursor_next he ▸ .ran (ownChange_setCtl s _) (.inr rfl)
    case rxDiscard => cases he; exact .replied _ (ownChange_setRx s _)
    case rxResync => cases he; exact .replied _ (ownChange_setRx s _)
    case rxReset => cases he; exact .replied _ (ownChange_setRx s _)
    case tlpHdrlen => cases he; exact .replied _ (ownChange_setRx s s.rx)
    case tlpDecode => cases he; exact .replied _ (ownChange_setRx s s.rx)
    case cfgRegoff => cases he; exact .replied _ (ownChange_setRx s s.rx)
    case tlpEncode => exact ran_tlpEncode he
    case tlpSend => exact ran_tlpSend he
    case regRead => cases he; exact .ran (ownChange_startRead _ _ _ _ _ s) (.inl rfl)
    case regRead8 => cases he; exact .ran (ownChange_startRead _ _ _ _ _ s) (.inl rfl)
    case regClrbits8 => cases he; exact .ran (ownChange_startRead _ _ _ _ _ s) (.inl rfl)
    case regWrite => cases he; exact .ran (ownChange_startWrite _ _ _ _ _ s) (.inl rfl)
    case sessionInit =>
      cases he
      exact .ran ((ownChange_setRx s _).trans (ownChange_startRead _ _ _ _ _ _)) (.inl rfl)
    case status => cases he; exact .status _
    case filler => cases he; exact .status _
    case slotTlpData => exact withCursor_next he ▸ .slot _
    case slotTlpLast => exact withCursor_next he ▸ .slot _
    case slotNonTlp01 => exact withCursor_next he ▸ .slot _
    case slotNonTlp10 => exact withCursor_next he ▸ .slot _
    case slotNonTlp11 => exact withCursor_next he ▸ .slot _
    case regresp => cases he; exact .own (ownChange_setTxn s _)
    case regRd => exact ran_regReq rfl he
    case regWr => exact ran_regReq rfl he
    case txTlpWord => cases he; exact .own (ownChange_sendWord _ _ s)
    case txTlpLast => cases he; exact .own (ownChange_sendWord _ _ s)
    all_goals exact absurd rfl hl

end

/-! ### Every step -/

/-- The states in which a step can run the unit it dispatches: the state itself, the state without the command just
taken from the port, or the state after the fetch of a word. -/
inductive Dispatched (s : State) : State → Prop where
  | here : Dispatched s s
  | command {p : Packet} {rest : List Packet} (h : s.port = p :: rest) : Dispatched s { s with port := rest }
  | fetched {q : Word} {u : State} (h : fetchWord s = .word q u) : Dispatched s u

/-- What is due fits the operation's own dispatch: an act is that dispatch, and a unit is to run in one of the
states of `Dispatched`. -/
def DueFits (s : State) (d : Due) : Prop :=
  match d with
  | .unit _ u => Dispatched s u
  | .act t => tick s = t

theorem dueStatus_fits {s : State} (htick : tick s = stepAwait s) : DueFits s (dueStatus s) := by
  unfold dueStatus
  unfold stepAwait at htick
  split <;> rename_i e <;> simp only [e] at htick
  · exact .fetched e
  · exact htick
  · exact htick

theorem dueSlot_fits {s : State} (htick : tick s = consumeSlot (slotNibble s.rx) s) : DueFits s (dueSlot s) := by
  unfold dueSlot
  split
  · rename_i hslot
    rwa [consumeSlot, if_pos hslot] at htick
  · exact .here

theorem dueRx_fits {s : State} (htick : tick s = rxTick s) : DueFits s (dueRx s) := by
  unfold dueRx
  split <;> rename_i hst <;> simp only [rxTick, hst] at htick
  · exact dueStatus_fits htick
  · exact dueSlot_fits htick
  · exact dueSlot_fits htick
  · exact htick

theorem dueReg_fits {s : State} (htick : tick s = regTick s) : DueFits s (dueReg s) := by
  unfold dueReg
  split <;> rename_i hphase <;> simp only [regTick, hphase] at htick
  · split <;> rename_i hrec <;> simp only [hrec] at htick
    · exact .here
    · exact htick
  · split
    · exact .here
    · exact htick
  · exact htick
  · exact htick
  · exact htick

theorem due_fits (s : State) : DueFits s (due s) := by
  have htick := tick.eq_def s
  unfold due
  split <;> rename_i hc <;> simp only [hc] at htick
  · exact htick
  · exact dueRx_fits htick
  · exact htick
  · exact .here
  · exact dueReg_fits htick

theorem serveHost_cases {s t : State} (he : serveHost s = .next t) :
    t = s ∨ t = (tick s).state ∨ ∃ i u, Dispatched s u ∧ exec i u = .next t := by
  cases hp : s.port with
  | nil =>
    simp only [serveHost, nextCommand, hp] at he
    cases he
    exact .inl rfl
  | cons p rest =>
    rw [serveHost_cons hp] at he
    unfold runCommand at he
    split at he
    · split at he
      · exact .inr (.inr ⟨_, _, .command hp, he⟩)
      · cases he
    · cases he

theorem resumeOp_cases {s t : State} (he : resumeOp s = .next t) :
    t = (tick s).state ∨ ∃ i u, Dispatched s u ∧ exec i u = .next t := by
  have hfits := due_fits s
  unfold resumeOp runUnit at he
  split at he <;> rename_i e <;> rw [e] at hfits
  · split at he
    · exact .inr ⟨_, _, hfits, he⟩
    · cases he
      exact .inl rfl
  · cases he
    exact .inl (congrArg Tick.state hfits.symm)

/-- What a step that answers can be: no change, the dispatch of the operation in progress, or a unit run. -/
theorem step_cases {s t : State} (he : step s = .next t) :
    t = s ∨ t = (tick s).state ∨ ∃ i u, Dispatched s u ∧ exec i u = .next t := by
  unfold step at he
  split at he
  · cases he
  · split at he
    · split at he
      · exact serveHost_cases he
      · exact .inr (resumeOp_cases he)
    · cases he

/-! ## What stays and what grows -/

/-! ### The parameters and the destination buffer -/

/-- What every dispatch of an operation leaves alone. -/
structure Untouched (s t : State) : Prop where
  cfg : t.cfg = s.cfg
  hostMem : t.hostMem = s.hostMem

theorem Untouched.trans {s t u : State} (h : Untouched s t) (k : Untouched t u) : Untouched s u :=
  ⟨k.cfg.trans h.cfg, k.hostMem.trans h.hostMem⟩

theorem OwnChange.untouched {s t : State} (h : OwnChange s t) : Untouched s t := by
  obtain ⟨_, _, _, _, _, _, rfl⟩ := h
  exact ⟨rfl, rfl⟩

theorem untouched_of_rxFrame {s t : State} (h : RxFrame s t) : Untouched s t := by
  obtain ⟨hcfg, -, -, -, -, -, hmem, -⟩ := h
  exact ⟨hcfg, hmem⟩

theorem untouched_of_txFrame {s t : State} (h : TxFrame s t) : Untouched s t := by
  obtain ⟨hcfg, -, -, -, hmem⟩ := h
  exact ⟨hcfg, hmem⟩

theorem tick_untouched (s : State) : Untouched s (tick s).state := by
  unfold tick
  split
  · exact ⟨rfl, rfl⟩
  · exact untouched_of_rxFrame (rxTick_frame s)
  · exact untouched_of_txFrame (sendFrame_frame s).1
  · exact (ownChange_sendWord _ _ s).untouched
  · exact untouched_of_txFrame (regTick_frame s)

theorem runOp_untouched (s : State) : Untouched s (runOp s) :=
  run_induct (Untouched s) (fun t _ h => h.trans (tick_untouched t)) _ s ⟨rfl, rfl⟩

/-- Every instruction leaves the parameters alone; only TLP_ENCODE stores to the destination buffer. -/
theorem exec_untouched {i : Instr} {s t : State} (he : exec i s = .next t) :
    t.cfg = s.cfg ∧ ((∀ hd cap, i ≠ .tlpEncode hd cap) → t.hostMem = s.hostMem) := by
  have stays {u : State} (h : Untouched s u) :
      u.cfg = s.cfg ∧ ((∀ hd cap, i ≠ .tlpEncode hd cap) → u.hostMem = s.hostMem) :=
    ⟨h.cfg, fun _ => h.hostMem⟩
  cases exec_ran he with
  | own h => exact stays h.untouched
  | replied r h => exact stays ⟨h.untouched.cfg, h.untouched.hostMem⟩
  | encoded m r hi => exact ⟨rfl, fun hne => absurd hi (hne _ _)⟩
  | status v => exact stays (untouched_of_rxFrame (takeStatus_frame v s))
  | slot c => exact stays (untouched_of_rxFrame (consumeSlot_frame c s))
  | emitted r _ => exact stays (untouched_of_txFrame (issueRecord_frame r s))
  | ran h _ => exact stays (h.untouched.trans (runOp_untouched _))

theorem Dispatched.cfg {s u : State} (h : Dispatched s u) : u.cfg = s.cfg := by
  cases h with
  | here => rfl
  | command => rfl
  | fetched e =>
    have hframe := fetchWord_frame s
    rw [e] at hframe
    exact (untouched_of_rxFrame hframe).cfg

/-- Settles O11: a step is a dispatch or a unit run, and both leave the parameters alone. -/
theorem stepKeepsConfig : Obligations.StepKeepsConfig := by
  intro s t he
  obtain rfl | rfl | ⟨i, u, hu, hi⟩ := step_cases he
  · rfl
  · exact (tick_untouched s).cfg
  · exact (exec_untouched hi).1.trans hu.cfg

/-- Settles O58: an instruction other than TLP_ENCODE leaves the cells of the destination buffer as they are, hence
every byte. -/
theorem hostMemFrame : Obligations.HostMemFrame := by
  intro i s t hne he a
  have hmem : t.hostMem = s.hostMem := (exec_untouched he).2 hne
  exact congrArg (fun m => Memory.read m a) hmem

/-! ### What the receiver does at the ports -/

/-- The answers of the environment's next reads are taken and logged, and no other event happens (R15, R161). -/
def Reads (s t : State) : Prop :=
  ∃ as, s.rxFeed = as ++ t.rxFeed ∧ t.trace = s.trace ++ as.map fun a => .didRead (clipAnswer a)

/-- What a dispatch of RX_DECODE does to the ports and to the operation: outcomes and diagnostics are added, answers
are read, and the operation goes on or ends. -/
structure ReceiverActs (s t : State) : Prop where
  replies : s.replies <+: t.replies
  diag : s.diag <+: t.diag
  reads : Reads s t
  ctl : t.ctl = s.ctl ∨ t.ctl = .idle

theorem reads_of_eq {s t : State} (hfeed : t.rxFeed = s.rxFeed) (htrace : t.trace = s.trace) : Reads s t :=
  ⟨[], hfeed.symm, by simp [htrace]⟩

theorem Reads.trans {s t u : State} (h : Reads s t) (k : Reads t u) : Reads s u := by
  obtain ⟨as, hfeed, htrace⟩ := h
  obtain ⟨bs, kfeed, ktrace⟩ := k
  exact ⟨as ++ bs, by simp [hfeed, kfeed], by simp [htrace, ktrace]⟩

theorem Reads.txStream {s t : State} (h : Reads s t) : txStream t = txStream s := by
  obtain ⟨as, -, htrace⟩ := h
  simp [Machine.txStream, htrace, List.flatMap_map, eventTx]

theorem reads_tookAnswer {s : State} {a : ReadAnswer} {rest : List ReadAnswer} (h : s.rxFeed = a :: rest) :
    Reads s (tookAnswer a rest s) := ⟨[a], h, rfl⟩

theorem ReceiverActs.trans {s t u : State} (h : ReceiverActs s t) (k : ReceiverActs t u) : ReceiverActs s u where
  replies := h.replies.trans k.replies
  diag := h.diag.trans k.diag
  reads := h.reads.trans k.reads
  ctl := k.ctl.elim (fun e => e ▸ h.ctl) .inr

/-- The receiver alone changes. -/
theorem receiverActs_setRx (s : State) (r : Receiver) : ReceiverActs s (s.setRx r) :=
  ⟨List.prefix_rfl, List.prefix_rfl, reads_of_eq rfl rfl, .inl rfl⟩

theorem ctlAfterRx_or (c : Ctl) (r : Reply) : ctlAfterRx c r = c ∨ ctlAfterRx c r = .idle := by
  unfold ctlAfterRx
  split
  · rename_i h
    exact .inl h.1.symm
  · exact .inr rfl

theorem receiverActs_emitRx (r : Reply) (s : State) : ReceiverActs s (emitRx r s) :=
  ⟨List.prefix_append _ _, List.prefix_append _ _, reads_of_eq rfl rfl, ctlAfterRx_or _ _⟩

theorem receiverActs_tookAnswer {s : State} {a : ReadAnswer} {rest : List ReadAnswer} (h : s.rxFeed = a :: rest) :
    ReceiverActs s (tookAnswer a rest s) :=
  ⟨List.prefix_rfl, List.prefix_rfl, reads_tookAnswer h, .inl rfl⟩

theorem emptyRead_acts (s : State) : ReceiverActs s (emptyRead s).2 := by
  rcases emptyRead_cases s with ⟨-, e⟩ | ⟨-, -, e⟩ | ⟨-, -, e⟩ <;> rw [e]
  · exact receiverActs_emitRx _ s
  · exact (receiverActs_setRx s _).trans (receiverActs_emitRx _ _)
  · exact receiverActs_setRx s _

theorem emptyRead_rxFeed (s : State) : (emptyRead s).2.rxFeed = s.rxFeed := by
  rcases emptyRead_cases s with ⟨-, e⟩ | ⟨-, -, e⟩ | ⟨-, -, e⟩ <;> rw [e] <;> rfl

theorem fetchRead_acts (feed : List ReadAnswer) (s : State) (hs : s.rxFeed = feed) :
    ReceiverActs s (fetchRead feed s).state := by
  induction feed generalizing s with
  | nil => exact receiverActs_setRx s s.rx
  | cons a rest ih =>
    have htook := receiverActs_tookAnswer hs
    unfold fetchRead
    simp only
    split
    · exact (htook.trans (receiverActs_setRx _ _)).trans (receiverActs_setRx _ _)
    · have hread := emptyRead_acts ((tookAnswer a rest s).setRx (emptyCursor (tookAnswer a rest s).rx))
      have hfeed := emptyRead_rxFeed ((tookAnswer a rest s).setRx (emptyCursor (tookAnswer a rest s).rx))
      have hempty := (htook.trans (receiverActs_setRx _ _)).trans hread
      split <;> rename_i s2 e <;> rw [e] at hempty hfeed
      · exact hempty
      · exact hempty.trans (ih s2 hfeed)

theorem fetchWord_acts (s : State) : ReceiverActs s (fetchWord s).state := by
  unfold fetchWord
  split
  · exact fetchRead_acts _ s rfl
  · exact receiverActs_setRx s _

theorem takeStatus_acts (v : Word) (s : State) : ReceiverActs s (takeStatus v s) := by
  rcases takeStatus_cases v s with ⟨-, e⟩ | ⟨-, e⟩ | ⟨-, e⟩ <;> rw [e]
  · exact receiverActs_setRx s s.rx
  · exact receiverActs_setRx s _
  · exact (receiverActs_setRx s _).trans (receiverActs_emitRx _ _)

theorem stepAwait_acts (s : State) : ReceiverActs s (stepAwait s).state := by
  have hf := fetchWord_acts s
  unfold stepAwait
  split <;> rename_i e <;> rw [e] at hf
  · exact hf.trans (takeStatus_acts _ _)
  · exact hf
  · exact hf

theorem consumeSlot_acts (c : Nibble) (s : State) : ReceiverActs s (consumeSlot c s).state := by
  have hf := fetchWord_acts s
  unfold consumeSlot
  split
  · exact receiverActs_setRx s _
  · split <;> rename_i e <;> rw [e] at hf
    · exact hf.trans (receiverActs_setRx _ _)
    · exact hf
    · exact hf

theorem rxTick_acts (s : State) : ReceiverActs s (rxTick s).state := by
  unfold rxTick
  split
  · exact stepAwait_acts s
  · exact consumeSlot_acts _ s
  · exact consumeSlot_acts _ s
  · exact (receiverActs_setRx s _).trans (receiverActs_emitRx _ _)

theorem tick_of_inRx {s : State} (hc : inRx s.ctl = true) : tick s = rxTick s := by
  cases e : s.ctl with
  | rx again => simp only [tick, e]
  | idle | send _ | reg =>
    rw [e] at hc
    cases hc

/-- A receive operation that runs does no more than its dispatches: it never becomes another operation. -/
theorem runOp_receives {s : State} (hc : inRx s.ctl = true) : RxFrame s (runOp s) ∧ ReceiverActs s (runOp s) := by
  refine run_induct (fun t => RxFrame s t ∧ ReceiverActs s t) (fun t hne ⟨hframe, hacts⟩ => ?_) _ s
    ⟨RxFrame.rfl' s, receiverActs_setRx s s.rx⟩
  have hrx : inRx t.ctl = true := hacts.ctl.elim (fun e => e ▸ hc) fun e => absurd e hne
  rw [tick_of_inRx hrx]
  exact ⟨hframe.trans' (rxTick_frame t), hacts.trans (rxTick_acts t)⟩

theorem transmit_of_receives {s t : State} (hf : RxFrame s t) (ha : ReceiverActs s t) :
    txStream t = txStream s ∧ t.txFeed = s.txFeed := by
  obtain ⟨-, -, -, -, htx, -⟩ := hf
  exact ⟨ha.reads.txStream, htx⟩

/-- Settles O59: what an instruction that may not send runs is a change inside the block or a dispatch of the
receiver, whose only transport events are reads. -/
theorem transmitFrame : Obligations.TransmitFrame := by
  intro i s t hi he
  have inside {u : State} (h : OwnChange s u) : txStream u = txStream s ∧ u.txFeed = s.txFeed := by
    obtain ⟨_, _, _, _, _, _, rfl⟩ := h
    exact ⟨rfl, rfl⟩
  cases exec_ran he with
  | own h => exact inside h
  | replied r h =>
    obtain ⟨hstream, hfeed⟩ := inside h
    exact ⟨hstream, hfeed⟩
  | encoded m r _ => exact ⟨rfl, rfl⟩
  | status v => exact transmit_of_receives (takeStatus_frame v s) (takeStatus_acts v s)
  | slot c => exact transmit_of_receives (consumeSlot_frame c s) (consumeSlot_acts c s)
  | emitted r hsend => exact absurd (hi.symm.trans hsend) nofun
  | @ran u h hu =>
    have hrx : inRx u.ctl = true := hu.resolve_left (by simp [hi])
    obtain ⟨hstream, hfeed⟩ := transmit_of_receives (runOp_receives hrx).1 (runOp_receives hrx).2
    obtain ⟨kstream, kfeed⟩ := inside h
    exact ⟨hstream.trans kstream, hfeed.trans kfeed⟩

/-! ### The histories of the ports -/

/-- What has crossed a port stays, in its order, and the coming draws and commands go from the front (R90, R91,
R349). -/
structure PortsGrow (s t : State) : Prop where
  replies : s.replies <+: t.replies
  diag : s.diag <+: t.diag
  trace : s.trace <+: t.trace
  rxFeed : t.rxFeed <:+ s.rxFeed
  txFeed : t.txFeed <:+ s.txFeed
  port : t.port <:+ s.port

theorem PortsGrow.trans {s t u : State} (h : PortsGrow s t) (k : PortsGrow t u) : PortsGrow s u where
  replies := h.replies.trans k.replies
  diag := h.diag.trans k.diag
  trace := h.trace.trans k.trace
  rxFeed := k.rxFeed.trans h.rxFeed
  txFeed := k.txFeed.trans h.txFeed
  port := k.port.trans h.port

theorem PortsGrow.refl (s : State) : PortsGrow s s :=
  ⟨List.prefix_rfl, List.prefix_rfl, List.prefix_rfl, List.suffix_rfl, List.suffix_rfl, List.suffix_rfl⟩

theorem OwnChange.portsGrow {s t : State} (h : OwnChange s t) : PortsGrow s t := by
  obtain ⟨_, _, _, _, _, _, rfl⟩ := h
  exact { PortsGrow.refl s with }

theorem portsGrow_deliver (r : Reply) (s : State) : PortsGrow s (deliver r s) :=
  { PortsGrow.refl s with replies := List.prefix_append _ _ }

theorem portsGrow_addEvent (e : PortEvent) (s : State) : PortsGrow s (s.addEvent e) :=
  { PortsGrow.refl s with trace := List.prefix_append _ _ }

theorem portsGrow_tookWrite (s : State) : PortsGrow s (tookWrite s) :=
  { PortsGrow.refl s with txFeed := List.tail_suffix _ }

theorem Reads.trace_prefix {s t : State} (h : Reads s t) : s.trace <+: t.trace := by
  obtain ⟨as, -, htrace⟩ := h
  exact ⟨_, htrace.symm⟩

theorem Reads.rxFeed_suffix {s t : State} (h : Reads s t) : t.rxFeed <:+ s.rxFeed := by
  obtain ⟨as, hfeed, -⟩ := h
  exact ⟨as, hfeed.symm⟩

theorem portsGrow_of_receives {s t : State} (hf : RxFrame s t) (ha : ReceiverActs s t) : PortsGrow s t := by
  obtain ⟨-, -, -, hport, htx, -⟩ := hf
  exact ⟨ha.replies, ha.diag, ha.reads.trace_prefix, ha.reads.rxFeed_suffix, htx ▸ List.suffix_rfl,
    hport ▸ List.suffix_rfl⟩

theorem portsGrow_tookAnswer {s : State} {a : ReadAnswer} {rest : List ReadAnswer} (h : s.rxFeed = a :: rest) :
    PortsGrow s (tookAnswer a rest s) :=
  { PortsGrow.refl s with
    trace := (reads_tookAnswer h).trace_prefix
    rxFeed := (reads_tookAnswer h).rxFeed_suffix }

theorem portsGrow_transportWrite (bs : List Byte) (s : State) : PortsGrow s (transportWrite bs s).2 := by
  rcases transportWrite_cases bs s with ⟨-, e⟩ | ⟨_, -, e⟩ <;> rw [e] <;>
    exact (portsGrow_tookWrite s).trans (portsGrow_addEvent _ _)

theorem portsGrow_sendFrame (s : State) : PortsGrow s (sendFrame s) := by
  have hw := portsGrow_transportWrite s.txFrame s
  rcases sendFrame_cases s with ⟨s1, e1, e⟩ | ⟨s1, e1, e⟩ <;> rw [e] <;> rw [e1] at hw <;>
    exact (hw.trans (ownChange_setFrame s1 _).portsGrow).trans (portsGrow_deliver _ _)

/-! ### Dispatches of a register transaction -/

theorem ownChange_putRecord (r : Rec) (s : State) : OwnChange s (putRecord r s) := ownChange_setTxn s _

theorem ownChange_finishTxn (r : RegStatus) (s : State) : OwnChange s (finishTxn r s) := ownChange_setTxn s _

theorem ownChange_afterIssue (s : State) : OwnChange s (afterIssue s) := by
  unfold afterIssue
  split
  · exact ownChange_finishTxn _ s
  · exact ownChange_setTxn s _

theorem ownChange_checkOperands (s : State) : OwnChange s (checkOperands s) := by
  rcases checkOperands_cases s with ⟨-, e⟩ | ⟨-, -, -, e⟩ | ⟨-, -, -, -, e⟩ | ⟨-, -, -, -, e⟩ <;> rw [e] <;>
    exact ownChange_setTxn s _

theorem portsGrow_issueRecord (r : Rec) (s : State) : PortsGrow s (issueRecord r s) := by
  have hw := portsGrow_transportWrite s.txn.batch s
  rcases issueRecord_cases r s with ⟨-, e⟩ | ⟨-, ⟨s1, e1, e⟩ | ⟨s1, e1, e⟩⟩ <;> rw [e]
  · exact (ownChange_putRecord r s).portsGrow
  · rw [e1] at hw
    exact hw.trans ((ownChange_setTxn s1 _).trans (ownChange_putRecord r _)).portsGrow
  · rw [e1] at hw
    exact hw.trans (ownChange_finishTxn _ s1).portsGrow

theorem portsGrow_flushBatch (s : State) : PortsGrow s (flushBatch s) := by
  have hw := portsGrow_transportWrite s.txn.batch s
  rcases flushBatch_cases s with ⟨-, e⟩ | ⟨-, ⟨s1, e1, e⟩ | ⟨s1, e1, e⟩⟩ <;> rw [e]
  · exact (ownChange_afterIssue s).portsGrow
  · rw [e1] at hw
    exact hw.trans (ownChange_afterIssue s1).portsGrow
  · rw [e1] at hw
    exact hw.trans (ownChange_finishTxn _ s1).portsGrow

theorem portsGrow_harvestRead (s : State) : PortsGrow s (harvestRead s).state := by
  rcases harvestRead_cases s with ⟨-, e⟩ | ⟨_, _, hfeed, -, e⟩ | ⟨_, _, _, hfeed, -, e⟩ <;> rw [e]
  · exact PortsGrow.refl s
  · exact (portsGrow_tookAnswer hfeed).trans (ownChange_finishTxn _ _).portsGrow
  · exact (portsGrow_tookAnswer hfeed).trans (ownChange_setTxn _ _).portsGrow

theorem portsGrow_harvestTick (s : State) : PortsGrow s (harvestTick s).state := by
  rcases harvestTick_cases s with ⟨_, _, -, e⟩ | ⟨-, -, e⟩ | ⟨-, -, e⟩ <;> rw [e]
  · exact (ownChange_setTxn s _).portsGrow
  · exact portsGrow_harvestRead s
  · exact (ownChange_finishTxn _ s).portsGrow

/-- The end of a transaction: at most one outcome, the rest being the block's own (R289, R152, R300-R302). -/
theorem portsGrow_finishPhase (s : State) : PortsGrow s (finishPhase s) := by
  have hreply (r : Reply) : PortsGrow s (deliver r (dropTxn s)) :=
    (ownChange_dropTxn s).portsGrow.trans (portsGrow_deliver r _)
  have hend (x : Session) : PortsGrow s (endSession x s) :=
    ((ownChange_dropTxn s).trans (ownChange_setSession _ x)).portsGrow.trans (portsGrow_deliver _ _)
  unfold finishPhase
  simp only
  split
  · exact hreply _
  · split
    · exact (hreply _).trans (ownChange_startWrite _ _ _ _ _ _).portsGrow
    · exact hreply _
  · split
    · exact hend _
    · split
      · exact hend _
      · exact (ownChange_startRead _ _ _ _ _ s).portsGrow
  · split
    · exact hend _
    · exact (ownChange_startWrite _ _ _ _ _ s).portsGrow
  · split
    · exact hend _
    · exact hend _

theorem portsGrow_regTick (s : State) : PortsGrow s (regTick s).state := by
  unfold regTick
  split
  · exact (ownChange_checkOperands s).portsGrow
  · split
    · exact portsGrow_issueRecord _ s
    · exact portsGrow_flushBatch s
  · exact (portsGrow_addEvent _ s).trans (ownChange_setTxn _ _).portsGrow
  · exact portsGrow_harvestTick s
  · exact portsGrow_finishPhase s

/-! ### Every dispatch, every instruction, every step -/

theorem portsGrow_tick (s : State) : PortsGrow s (tick s).state := by
  unfold tick
  split
  · exact PortsGrow.refl s
  · exact portsGrow_of_receives (rxTick_frame s) (rxTick_acts s)
  · exact portsGrow_sendFrame s
  · exact (ownChange_sendWord _ _ s).portsGrow
  · exact portsGrow_regTick s

theorem portsGrow_runOp (s : State) : PortsGrow s (runOp s) :=
  run_induct (PortsGrow s) (fun t _ h => h.trans (portsGrow_tick t)) _ s (PortsGrow.refl s)

theorem portsGrow_exec {i : Instr} {s t : State} (he : exec i s = .next t) : PortsGrow s t := by
  cases exec_ran he with
  | own h => exact h.portsGrow
  | replied r h => exact h.portsGrow.trans (portsGrow_deliver r _)
  | encoded m r _ => exact { portsGrow_deliver r s with }
  | status v => exact portsGrow_of_receives (takeStatus_frame v s) (takeStatus_acts v s)
  | slot c => exact portsGrow_of_receives (consumeSlot_frame c s) (consumeSlot_acts c s)
  | emitted r _ => exact portsGrow_issueRecord r s
  | ran h _ => exact h.portsGrow.trans (portsGrow_runOp _)

theorem Dispatched.portsGrow {s u : State} (h : Dispatched s u) : PortsGrow s u := by
  cases h with
  | here => exact PortsGrow.refl s
  | @command p rest hp => exact { PortsGrow.refl s with port := hp ▸ List.suffix_cons p rest }
  | fetched e =>
    have hf := fetchWord_frame s
    have ha := fetchWord_acts s
    rw [e] at hf ha
    exact portsGrow_of_receives hf ha

theorem portsGrow_step {s t : State} (he : step s = .next t) : PortsGrow s t := by
  obtain rfl | rfl | ⟨i, u, hu, hi⟩ := step_cases he
  · exact PortsGrow.refl t
  · exact portsGrow_tick s
  · exact hu.portsGrow.trans (portsGrow_exec hi)

/-- Settles O12: taking the command or the word that is due, every dispatch and every instruction let the ports'
histories grow at their ends and take draws and commands from the front. -/
theorem stepHistoriesGrow : Obligations.StepHistoriesGrow := by
  intro s t he
  obtain ⟨⟨l1, h1⟩, ⟨l2, h2⟩, ⟨l3, h3⟩, ⟨l4, h4⟩, ⟨l5, h5⟩, ⟨l6, h6⟩⟩ := portsGrow_step he
  exact ⟨⟨l1, h1.symm⟩, ⟨l2, h2.symm⟩, ⟨l3, h3.symm⟩, ⟨l4, h4.symm⟩, ⟨l5, h5.symm⟩, ⟨l6, h6.symm⟩⟩

end Sys2Proof.Machine
end

section
/-! SUPPORT. The proofs of the family of spec/30_encoding.md: the decoder and the encoder undo each other, the records
and the transmit units, `rx.next` run to its outcome, and `reg.clrbits8` run through its two transactions. -/

namespace Sys2Proof.Machine

/-! ## Decoding what the encoder writes -/

/-! ### The operand words of a host command -/

/-- A decoder goes on with the operand it has read. -/
theorem bind_of_ok {α : Type} {x : Except Reject α} {a : α} (h : x = .ok a) (f : α → Except Reject Instr) :
    (x >>= f) = f a := by
  rw [h]
  rfl

theorem word32_toNat (w : Word) : word32 w.toNat = .ok w := by simp [word32, w.isLt]

theorem half16_toNat (h : Half) : half16 h.toNat = .ok h := by simp [half16, h.isLt]

theorem wordList_map_toNat (ws : List Word) : wordList (ws.map BitVec.toNat) = .ok ws := by
  induction ws with
  | nil => rfl
  | cons w ws ih => simp only [List.map_cons, wordList, word32_toNat, ih]; rfl

theorem byteList_map_toNat (bs : List Byte) : byteList (bs.map BitVec.toNat) = .ok bs := by
  induction bs with
  | nil => rfl
  | cons b bs ih =>
    have hb : b.toNat < 2 ^ 8 := b.isLt
    simp only [List.map_cons, byteList, ih, hb, if_true, BitVec.ofNat_toNat, BitVec.setWidth_eq]
    rfl

/-- The first five operand words of a command that begins with a header are that header (R43). -/
theorem headerOf_headerWords (h : Header) (rest : List Nat) : headerOf (headerWords h ++ rest) = .ok h := by
  obtain ⟨w0, w1, w2, w3, hw⟩ := h
  cases hw <;> simp [headerOf, headerWords, opWord, word32_toNat, hdrWordsOf] <;> rfl

/-! ### The bits of a wire unit -/

/-- A unit's one word is read back as the bits it holds (R100). -/
theorem oneWord_toNat_bind {n : Nat} (v : BitVec n) (e : Reject) (f : BitVec n → Except Reject Instr) :
    (oneWord (2 ^ n) e [v.toNat] >>= fun m => f (BitVec.ofNat n m)) = f v := by
  have hword : oneWord (2 ^ n) e [v.toNat] = .ok v.toNat := by simp [oneWord, v.isLt]
  rw [bind_of_ok hword, BitVec.ofNat_toNat, BitVec.setWidth_eq]

theorem decode_rxStatus (v : Word) : decode ⟨.rxStatus, [v.toNat]⟩ = decodeRxStatus v := oneWord_toNat_bind v _ _

theorem decode_slot (c : Nibble) : decode ⟨.slot, [c.toNat]⟩ = .ok (decodeSlot c) :=
  oneWord_toNat_bind c _ fun c => .ok (decodeSlot c)

theorem decode_regReq (r : Rec) : decode ⟨.regReq, [r.toNat]⟩ = decodeRegReq r := oneWord_toNat_bind r _ _

theorem decode_regResp (q : Word) : decode ⟨.regResp, [q.toNat]⟩ = .ok (decodeRegResp q) :=
  oneWord_toNat_bind q _ fun q => .ok (decodeRegResp q)

theorem decode_txTlp (r : Rec) : decode ⟨.txTlp, [r.toNat]⟩ = decodeTxTlp r := oneWord_toNat_bind r _ _

theorem decode_tlpFmt (w : Word) : decode (leaderPacket .tlpFmt w) = .ok (decodeTlpFmt w) :=
  oneWord_toNat_bind w _ fun w => .ok (decodeTlpFmt w)

theorem decode_tlpType (w : Word) : decode (leaderPacket .tlpType w) = decodeTlpType w := oneWord_toNat_bind w _ _

/-! ### Status words, slot classes and response words -/

/-- A status word is no filler word: their markers differ (R101, R104). -/
theorem decodeRxStatus_status (slots : BitVec 28) :
    decodeRxStatus (Lit.statusMarker ++ slots) = .ok (.status slots) := by
  have hmark : markOf (Lit.statusMarker ++ slots) = Lit.statusMarker := BitVec.extractLsb'_append_eq_left
  have hne : (Lit.statusMarker ++ slots : Word) ≠ Lit.fillerWord := fun h => by
    rw [h] at hmark
    exact absurd hmark (by decide)
  have hlow : (Lit.statusMarker ++ slots : Word).extractLsb' 0 28 = slots := BitVec.extractLsb'_append_eq_right
  rw [decodeRxStatus, if_neg hne, if_pos hmark, hlow]

theorem decodeSlot_tlp (b3 : BitVec 1) :
    decodeSlot (b3 ++ 0b000#3) = .slotTlpData b3 ∧ decodeSlot (b3 ++ 0b100#3) = .slotTlpLast b3 := by
  revert b3
  decide

theorem decodeSlot_nonTlp (hi : BitVec 2) :
    decodeSlot (hi ++ 0b01#2) = .slotNonTlp01 hi ∧ decodeSlot (hi ++ 0b10#2) = .slotNonTlp10 hi ∧
      decodeSlot (hi ++ 0b11#2) = .slotNonTlp11 hi := by
  revert hi
  decide

theorem decodeRegResp_append (a : Half) (dA dA1 : Byte) : decodeRegResp (a ++ dA ++ dA1) = .regresp a dA dA1 := by
  simp (disch := omega) only [decodeRegResp, byteOf, BitVec.extractLsb'_append_eq_of_le,
    BitVec.extractLsb'_append_eq_of_add_le, BitVec.extractLsb'_eq_self, Nat.reduceSub, Nat.reduceMul]

/-! ### Records of the transmit stream -/

section
variable (upper : BitVec 32) (cmd : Byte) (region : BitVec 2) (pair : BitVec 11) (ch : BitVec 2)

/-- The fixed bits of a register request record stand below whatever its upper half holds (R125). -/
theorem regReqFixedOk_regReqLow : regReqFixedOk (upper ++ regReqLow cmd region pair ch) = true := by
  simp (disch := omega) only [regReqFixedOk, regReqLow, BitVec.extractLsb'_append_eq_of_le,
    BitVec.extractLsb'_append_eq_of_add_le, BitVec.extractLsb'_eq_self, Nat.reduceSub]
  rfl

/-- The fields of a register request record (R125, R126). -/
theorem regReqLow_fields :
    (upper ++ regReqLow cmd region pair ch).extractLsb' 10 6 = cmdBits cmd ∧
      (upper ++ regReqLow cmd region pair ch).extractLsb' 30 2 = region ∧
      (upper ++ regReqLow cmd region pair ch).extractLsb' 17 11 = pair ∧
      (upper ++ regReqLow cmd region pair ch).extractLsb' 8 2 = ch := by
  refine ⟨?_, ?_, ?_, ?_⟩ <;>
    simp (disch := omega) only [regReqLow, BitVec.extractLsb'_append_eq_of_le,
      BitVec.extractLsb'_append_eq_of_add_le, BitVec.extractLsb'_eq_self, Nat.reduceSub]

theorem decodeRegReq_regRdRec : decodeRegReq (regRdRec region pair ch) = .ok (.regRd region pair ch) := by
  obtain ⟨hcmd, hregion, hpair, hch⟩ := regReqLow_fields 0#32 Lit.cmdRead region pair ch
  rw [regRdRec, decodeRegReq_of_read (regReqFixedOk_regReqLow _ _ _ _ _) hcmd BitVec.extractLsb'_append_eq_left,
    hregion, hpair, hch]

theorem decodeRegReq_regWrRec (d0 d1 beLo beHi : Byte) :
    decodeRegReq (regWrRec d0 d1 beLo beHi region pair ch) = .ok (.regWr d0 d1 beLo beHi region pair ch) := by
  obtain ⟨hcmd, hregion, hpair, hch⟩ := regReqLow_fields (d0 ++ d1 ++ beLo ++ beHi) Lit.cmdWrite region pair ch
  have hbytes (k : Nat) (hk : k ≤ 3) : recByte (regWrRec d0 d1 beLo beHi region pair ch) k =
      byteOf (d0 ++ d1 ++ beLo ++ beHi) k := by
    have hsub : 56 - 8 * k - 32 = 24 - 8 * k := by omega
    simp (disch := omega) only [recByte, byteOf, regWrRec, BitVec.extractLsb'_append_eq_of_le, hsub]
  rw [regWrRec] at hbytes
  rw [regWrRec, decodeRegReq_of_write (regReqFixedOk_regReqLow _ _ _ _ _) hcmd, hregion, hpair, hch]
  simp (disch := omega) only [hbytes, byteOf, BitVec.extractLsb'_append_eq_of_le,
    BitVec.extractLsb'_append_eq_of_add_le, BitVec.extractLsb'_eq_self, Nat.reduceSub, Nat.reduceMul]
end

theorem decodeTxTlp_txTlpRec (w : Word) :
    decodeTxTlp (txTlpRec w false) = .ok (.txTlpWord w) ∧ decodeTxTlp (txTlpRec w true) = .ok (.txTlpLast w) := by
  have hlow (last : Bool) : (txTlpRec w last).extractLsb' 0 32 = txTlpLow last := BitVec.extractLsb'_append_eq_right
  have hword (last : Bool) : (txTlpRec w last).extractLsb' 32 32 = w := BitVec.extractLsb'_append_eq_left
  have hne : txTlpLow true ≠ txTlpLow false := by decide
  constructor
  · rw [decodeTxTlp, hlow, hword, if_pos rfl]
  · rw [decodeTxTlp, hlow, hword, if_neg hne, if_pos rfl]

/-! ### TLP leader words -/

/-- The bytes of Fmt and Type that name one row of R112's table; its other rows leave bits of the byte free. -/
def typeBytes : List Byte :=
  [0x00, 0x20, 0x01, 0x21, 0x40, 0x60, 0x02, 0x42, 0x04, 0x44, 0x05, 0x45, 0x0A, 0x4A, 0x0B, 0x4B, 0x4C, 0x6C, 0x4D,
    0x6D, 0x4E, 0x6E]

/-- No byte of a row with a whole byte is one of a message row or of a TLPPFX row (R112). -/
theorem typeBytes_apart : ∀ b ∈ typeBytes, b.extractLsb' 3 5 ≠ 0b00110 ∧ b.extractLsb' 3 5 ≠ 0b01110 ∧
    b.extractLsb' 4 4 ≠ 0x8 ∧ b.extractLsb' 4 4 ≠ 0x9 := by decide

/-- A leader word of none of the rows with a whole byte is decoded by its upper bits (R112). -/
theorem decodeTlpType_of_not_mem {w : Word} (h : w.extractLsb' 24 8 ∉ typeBytes) :
    decodeTlpType w =
      if w.extractLsb' 27 5 = 0b00110 then .ok (.msg (w.extractLsb' 0 27))
      else if w.extractLsb' 27 5 = 0b01110 then .ok (.msgD (w.extractLsb' 0 27))
      else if w.extractLsb' 28 4 = 0x8 then .ok (.lprfx (w.extractLsb' 0 28))
      else if w.extractLsb' 28 4 = 0x9 then .ok (.eprfx (w.extractLsb' 0 28))
      else .error .noTypeRow := by
  simp only [typeBytes, List.mem_cons, List.not_mem_nil, or_false, not_or] at h
  simp only [decodeTlpType, h, if_false]

/-- The upper bits of a message row or of a TLPPFX row leave none of the rows with a whole byte (R112). -/
theorem typeByte_not_mem {w : Word} (h : w.extractLsb' 27 5 = 0b00110#5 ∨ w.extractLsb' 27 5 = 0b01110#5 ∨
    w.extractLsb' 28 4 = 0x8#4 ∨ w.extractLsb' 28 4 = 0x9#4) : w.extractLsb' 24 8 ∉ typeBytes := fun hb => by
  obtain ⟨h1, h2, h3, h4⟩ := typeBytes_apart _ hb
  rw [extractLsb'_of_extractLsb' w 24 8 3 5 (by decide)] at h1 h2
  rw [extractLsb'_of_extractLsb' w 24 8 4 4 (by decide)] at h3 h4
  exact h.elim h1 (·.elim h2 (·.elim h3 h4))

theorem decodeTlpType_message (rest : BitVec 27) :
    decodeTlpType (0b00110#5 ++ rest) = .ok (.msg rest) ∧ decodeTlpType (0b01110#5 ++ rest) = .ok (.msgD rest) := by
  have hup (c : BitVec 5) : (c ++ rest : Word).extractLsb' 27 5 = c := BitVec.extractLsb'_append_eq_left
  have hlow (c : BitVec 5) : (c ++ rest : Word).extractLsb' 0 27 = rest := BitVec.extractLsb'_append_eq_right
  have hmsg := decodeTlpType_of_not_mem (typeByte_not_mem (.inl (hup 0b00110#5)))
  have hmsgD := decodeTlpType_of_not_mem (typeByte_not_mem (.inr (.inl (hup 0b01110#5))))
  rw [hup, hlow] at hmsg hmsgD
  exact ⟨hmsg, hmsgD⟩

theorem decodeTlpType_prefix (rest : BitVec 28) :
    decodeTlpType (0x8#4 ++ rest) = .ok (.lprfx rest) ∧ decodeTlpType (0x9#4 ++ rest) = .ok (.eprfx rest) := by
  have hup (c : BitVec 4) : (c ++ rest : Word).extractLsb' 28 4 = c := BitVec.extractLsb'_append_eq_left
  have hlow (c : BitVec 4) : (c ++ rest : Word).extractLsb' 0 28 = rest := BitVec.extractLsb'_append_eq_right
  have hne (c : BitVec 4) (hc : c ≠ 0b0011#4 ∧ c ≠ 0b0111#4) :
      (c ++ rest : Word).extractLsb' 27 5 ≠ 0b00110 ∧ (c ++ rest : Word).extractLsb' 27 5 ≠ 0b01110 := by
    have htop := extractLsb'_of_extractLsb' (c ++ rest : Word) 27 5 1 4 (by decide)
    rw [hup] at htop
    constructor <;> intro h <;> rw [h] at htop
    · exact hc.1 htop.symm
    · exact hc.2 htop.symm
  constructor
  · obtain ⟨h1, h2⟩ := hne 0x8#4 (by decide)
    rw [decodeTlpType_of_not_mem (typeByte_not_mem (.inr (.inr (.inl (hup 0x8#4))))), if_neg h1, if_neg h2, hup, hlow]
    rfl
  · obtain ⟨h1, h2⟩ := hne 0x9#4 (by decide)
    rw [decodeTlpType_of_not_mem (typeByte_not_mem (.inr (.inr (.inr (hup 0x9#4))))), if_neg h1, if_neg h2, hup, hlow]
    rfl

/-! ### Every instruction -/

/-- Every encoded instruction is decoded back: the host commands by their operand words, the wire units by their
bits. -/
theorem decode_encode {i : Instr} {p : Packet} (h : encode i = some p) : decode p = .ok i := by
  cases i <;> cases h
  case rxDecode | rxDiscard | rxReset | sessionInit => rfl
  case tlpHdrlen w => exact bind_of_ok (word32_toNat w) fun w => .ok (.tlpHdrlen w)
  case tlpDecode ws => exact bind_of_ok (wordList_map_toNat ws) fun ws => .ok (.tlpDecode ws)
  case tlpEncode h cap => exact bind_of_ok (headerOf_headerWords h [cap]) fun h => .ok (.tlpEncode h cap)
  case tlpSend h tail =>
    exact (bind_of_ok (headerOf_headerWords h _) fun h => wordList _ >>= fun tail => .ok (.tlpSend h tail)).trans
      (bind_of_ok (wordList_map_toNat tail) fun tail => .ok (.tlpSend h tail))
  case cfgRegoff h => exact bind_of_ok (headerOf_headerWords h []) fun h => .ok (.cfgRegoff h)
  case regRead addr cnt region ch =>
    exact bind_of_ok (half16_toNat region) fun region => .ok (.regRead addr cnt region ch)
  case regWrite addr data region ch =>
    exact (bind_of_ok (half16_toNat region) fun region => byteList _ >>= fun data =>
        .ok (.regWrite addr data region ch)).trans
      (bind_of_ok (byteList_map_toNat data) fun data => .ok (.regWrite addr data region ch))
  case status slots => exact (decode_rxStatus _).trans (decodeRxStatus_status slots)
  case filler => rfl
  case slotTlpData b3 => exact (decode_slot _).trans (congrArg _ (decodeSlot_tlp b3).1)
  case slotTlpLast b3 => exact (decode_slot _).trans (congrArg _ (decodeSlot_tlp b3).2)
  case slotNonTlp01 hi => exact (decode_slot _).trans (congrArg _ (decodeSlot_nonTlp hi).1)
  case slotNonTlp10 hi => exact (decode_slot _).trans (congrArg _ (decodeSlot_nonTlp hi).2.1)
  case slotNonTlp11 hi => exact (decode_slot _).trans (congrArg _ (decodeSlot_nonTlp hi).2.2)
  case regresp a dA dA1 => exact (decode_regResp _).trans (congrArg _ (decodeRegResp_append a dA dA1))
  case regRd region pair ch => exact (decode_regReq _).trans (decodeRegReq_regRdRec region pair ch)
  case regWr d0 d1 beLo beHi region pair ch =>
    exact (decode_regReq _).trans (decodeRegReq_regWrRec region pair ch d0 d1 beLo beHi)
  case txTlpWord w => exact (decode_txTlp _).trans (decodeTxTlp_txTlpRec w).1
  case txTlpLast w => exact (decode_txTlp _).trans (decodeTxTlp_txTlpRec w).2
  case fmt3dwNodata | fmt4dwNodata | fmt3dwData | fmt4dwData | fmtPrefix | fmtRsvd101 | fmtRsvd110 | fmtRsvd111 =>
    refine (decode_tlpFmt _).trans ?_
    simp only [decodeTlpFmt, BitVec.extractLsb'_append_eq_left, BitVec.extractLsb'_append_eq_right]
    rfl
  case msg rest => exact (decode_tlpType _).trans (decodeTlpType_message rest).1
  case msgD rest => exact (decode_tlpType _).trans (decodeTlpType_message rest).2
  case lprfx rest => exact (decode_tlpType _).trans (decodeTlpType_prefix rest).1
  case eprfx rest => exact (decode_tlpType _).trans (decodeTlpType_prefix rest).2
  all_goals
    refine (decode_tlpType _).trans ?_
    simp only [decodeTlpType, BitVec.extractLsb'_append_eq_left, BitVec.extractLsb'_append_eq_right]
    rfl

/-- The encoder writes nothing for a pseudo-instruction alone (R152). -/
theorem encode_eq_none_iff (i : Instr) : encode i = none ↔
    (∃ a r, i = .regRead8 a r) ∨ (∃ a m r, i = .regClrbits8 a m r) ∨ i = .rxResync ∨ i = .rxNext := by
  cases i <;> simp [encode]

/-- Settles O1: decoding undoes encoding, instruction by instruction. -/
theorem decodeEncode : Obligations.DecodeEncode := ⟨fun _ _ => decode_encode, encode_eq_none_iff⟩

/-! ## Encoding what the decoder reads -/

/-- The instruction's packet is the unit with these bits. -/
def EncodesTo (f : Format) {n : Nat} (v : BitVec n) (i : Instr) : Prop := encode i = some ⟨f, [v.toNat]⟩

theorem encodesTo_of_eq {f : Format} {n : Nat} {u v : BitVec n} {i : Instr} (h : u = v) (hu : EncodesTo f u i) :
    EncodesTo f v i := h ▸ hu

theorem yields_ite_of {P : Instr → Prop} {c : Prop} [Decidable c] {d e : Except Reject Instr}
    (hd : c → Yields P d) (he : Yields P e) : Yields P (if c then d else e) := by
  split
  · exact hd ‹_›
  · exact he

/-- A unit decoded by the bits of its one word has exactly those bits as its word. -/
theorem encode_of_oneWord {n : Nat} {f : Format} {g : BitVec n → Except Reject Instr}
    (h : ∀ v, Yields (EncodesTo f v) (g v)) (e : Reject) (ws : List Nat) :
    Yields (fun i => encode i = some ⟨f, ws⟩) (oneWord (2 ^ n) e ws >>= fun m => g (BitVec.ofNat n m)) := by
  match ws with
  | [] => exact yields_error _
  | [m] =>
    by_cases hm : m < 2 ^ n
    · have hv := h (BitVec.ofNat n m)
      have hword : oneWord (2 ^ n) e [m] = .ok m := by simp [oneWord, hm]
      unfold EncodesTo at hv
      rw [BitVec.toNat_ofNat, Nat.mod_eq_of_lt hm] at hv
      rwa [bind_of_ok hword]
    · have hword : oneWord (2 ^ n) e [m] = .error e := by simp [oneWord, hm]
      rw [hword]
      exact yields_error _
  | m :: _ :: _ => exact yields_error _

/-- A word is its upper bits followed by its lower bits. -/
theorem append_of_extract {n k : Nat} {w : BitVec (n + k)} {a : BitVec n} (h : w.extractLsb' k n = a) :
    a ++ w.extractLsb' 0 k = w := by
  rw [← h, BitVec.extractLsb'_append_extractLsb'_eq_extractLsb' (by omega), BitVec.extractLsb'_eq_self]

/-! ### Status words, slot classes and response words -/

theorem decodeRxStatus_encodes (v : Word) : Yields (EncodesTo .rxStatus v) (decodeRxStatus v) :=
  yields_ite_of (fun h => yields_ok (encodesTo_of_eq h.symm rfl)) <|
    yields_ite_of (fun h => yields_ok (encodesTo_of_eq (append_of_extract (n := 4) (k := 28) h) rfl)) (yields_error _)

theorem decodeSlot_encodes (c : Nibble) : EncodesTo .slot c (decodeSlot c) := by
  unfold EncodesTo
  revert c
  decide

theorem decodeRegResp_encodes (q : Word) : EncodesTo .regResp q (decodeRegResp q) := by
  have hq : q.extractLsb' 16 16 ++ q.extractLsb' 8 8 ++ q.extractLsb' 0 8 = q := by
    rw [BitVec.extractLsb'_append_extractLsb'_eq_extractLsb', BitVec.extractLsb'_append_extractLsb'_eq_extractLsb',
      BitVec.extractLsb'_eq_self] <;> rfl
  exact encodesTo_of_eq hq rfl

/-! ### Records of the transmit stream -/

/-- A record with the fixed bits of R125 is its upper half and the fields of its lower half. -/
theorem append_regReqLow_of_fixed {r : Rec} {cmd : Byte} (hfixed : regReqFixedOk r = true)
    (hcmd : r.extractLsb' 10 6 = cmdBits cmd) :
    r.extractLsb' 32 32 ++ regReqLow cmd (r.extractLsb' 30 2) (r.extractLsb' 17 11) (r.extractLsb' 8 2) = r := by
  simp only [regReqFixedOk, Bool.and_eq_true, decide_eq_true_eq] at hfixed
  obtain ⟨⟨htrailer, h28⟩, h16⟩ := hfixed
  have hlow : regReqLow cmd (r.extractLsb' 30 2) (r.extractLsb' 17 11) (r.extractLsb' 8 2) = r.extractLsb' 0 32 := by
    rw [regReqLow, ← htrailer, ← hcmd, show 0#2 = r.extractLsb' 28 2 from h28.symm,
      show 0#1 = r.extractLsb' 16 1 from h16.symm]
    iterate 6 rw [BitVec.extractLsb'_append_extractLsb'_eq_extractLsb']
    all_goals rfl
  rw [hlow]
  exact append_of_extract (n := 32) (k := 32) rfl

/-- The upper half of a record is its first four wire bytes (R125). -/
theorem recByte_append (r : Rec) :
    recByte r 0 ++ recByte r 1 ++ recByte r 2 ++ recByte r 3 = r.extractLsb' 32 32 := by
  unfold recByte
  iterate 3 rw [BitVec.extractLsb'_append_extractLsb'_eq_extractLsb']
  all_goals rfl

theorem decodeRegReq_encodes (r : Rec) : Yields (EncodesTo .regReq r) (decodeRegReq r) := by
  refine yields_ite_of (fun hfixed => yields_ite_of (fun ⟨hcmd, hdata⟩ => ?_) (yields_ite_of (fun hcmd => ?_)
    (yields_error _))) (yields_error _)
  · have hr := append_regReqLow_of_fixed hfixed hcmd
    rw [hdata] at hr
    exact yields_ok (encodesTo_of_eq hr rfl)
  · have hr := append_regReqLow_of_fixed hfixed hcmd
    rw [← recByte_append r] at hr
    exact yields_ok (encodesTo_of_eq hr rfl)

theorem decodeTxTlp_encodes (r : Rec) : Yields (EncodesTo .txTlp r) (decodeTxTlp r) := by
  have hrec {last : Bool} (h : r.extractLsb' 0 32 = txTlpLow last) : txTlpRec (r.extractLsb' 32 32) last = r := by
    rw [txTlpRec, ← h]
    exact append_of_extract (n := 32) (k := 32) rfl
  exact yields_ite_of (fun h => yields_ok (encodesTo_of_eq (hrec h) rfl)) <|
    yields_ite_of (fun h => yields_ok (encodesTo_of_eq (hrec h) rfl)) (yields_error _)

/-! ### TLP leader words -/

theorem decodeTlpFmt_encodes (w : Word) : EncodesTo .tlpFmt w (decodeTlpFmt w) := by
  have row {c : BitVec 3} (h : w.extractLsb' 29 3 = c) : c ++ w.extractLsb' 0 29 = w :=
    append_of_extract (n := 3) (k := 29) h
  unfold decodeTlpFmt
  simp only
  split_ifs with h0 h1 h2 h3 h4 h5 h6
  · exact encodesTo_of_eq (row h0) rfl
  · exact encodesTo_of_eq (row h1) rfl
  · exact encodesTo_of_eq (row h2) rfl
  · exact encodesTo_of_eq (row h3) rfl
  · exact encodesTo_of_eq (row h4) rfl
  · exact encodesTo_of_eq (row h5) rfl
  · exact encodesTo_of_eq (row h6) rfl
  · have h7 : w.extractLsb' 29 3 = 0b111 := by
      generalize w.extractLsb' 29 3 = f at *
      bv_omega
    exact encodesTo_of_eq (row h7) rfl

/-- Every row of R112 fixes some upper bits of the word and leaves the bits below them. -/
theorem decodeTlpType_encodes (w : Word) : Yields (EncodesTo .tlpType w) (decodeTlpType w) := by
  unfold decodeTlpType
  iterate 22
    refine yields_ite_of (fun h => yields_ok (encodesTo_of_eq (append_of_extract (n := 8) (k := 24) h) rfl)) ?_
  iterate 2
    refine yields_ite_of (fun h => yields_ok (encodesTo_of_eq (append_of_extract (n := 5) (k := 27) h) rfl)) ?_
  iterate 2
    refine yields_ite_of (fun h => yields_ok (encodesTo_of_eq (append_of_extract (n := 4) (k := 28) h) rfl)) ?_
  exact yields_error _

/-! ### Every wire unit -/

/-- Settles O2: format by format, the unit's bits are the row's fixed bits and the fields the decoder reads, which the
encoder puts back in their places. -/
theorem encodeDecode : Obligations.EncodeDecode := by
  rintro ⟨fmt, ws⟩ i hne
  cases fmt
  case hostCmd => exact absurd rfl hne
  case rxStatus => exact encode_of_oneWord decodeRxStatus_encodes _ ws i
  case slot => exact encode_of_oneWord (fun c => yields_ok (decodeSlot_encodes c)) _ ws i
  case regReq => exact encode_of_oneWord decodeRegReq_encodes _ ws i
  case regResp => exact encode_of_oneWord (fun q => yields_ok (decodeRegResp_encodes q)) _ ws i
  case txTlp => exact encode_of_oneWord decodeTxTlp_encodes _ ws i
  case tlpFmt => exact encode_of_oneWord (fun w => yields_ok (decodeTlpFmt_encodes w)) _ ws i
  case tlpType => exact encode_of_oneWord decodeTlpType_encodes _ ws i

/-! ### Sample words, unknown codes and transmit records -/

/-- Settles O3: the decoder is evaluated on each word. -/
theorem decodeSampleWords : Obligations.DecodeSampleWords :=
  ⟨rfl, rfl, rfl, rfl, rfl, rfl, rfl, rfl, rfl, rfl, rfl, rfl⟩

theorem decodeHostCmd_unknown {code : Nat} (ops : List Nat)
    (h : code ∉ [0x01, 0x02, 0x03, 0x10, 0x11, 0x12, 0x13, 0x14, 0x20, 0x21, 0x30]) :
    decodeHostCmd code ops = .error (.unknownCode code) := by
  simp only [List.mem_cons, List.not_mem_nil, or_false, not_or] at h
  simp only [decodeHostCmd, h, if_false]

theorem runCommand_of_reject {p : Packet} {r : Reject} (hf : isHostFormat p.fmt = true) (hd : decode p = .error r)
    (s : State) : runCommand p s = .refused (.undecodable r) := by
  simp [runCommand, hf, hd]

/-- Settles O4: the step serves the host, whose packet the decoder rejects by its code. -/
theorem unknownCodeRefused : Obligations.UnknownCodeRefused := by
  intro s code ops rest hh hcur hc hp hcode
  calc step s = serveHost s := step_of_idle hh hcur hc
    _ = runCommand ⟨.hostCmd, code :: ops⟩ { s with port := rest } := serveHost_cons hp
    _ = .refused (.undecodable (.unknownCode code)) :=
      runCommand_of_reject (p := ⟨.hostCmd, code :: ops⟩) rfl (decodeHostCmd_unknown ops hcode) _

/-- Settles O46: the records of a checked call are legal, one by one. -/
theorem recordsAreLegal : Obligations.RecordsAreLegal := fun _ hr hc hcnt hrange hdata =>
  List.all_eq_true.mp (txnRecs_legal hr hc hrange hcnt hdata)

/-- The wire bytes of a transmit record: the word's four, then those of the rest of the record (R128). -/
theorem recBytes_txTlpRec (w : Word) (last : Bool) :
    recBytes (txTlpRec w last) = bytesBe w ++ bytesBe (txTlpLow last) := by
  simp (disch := omega) only [recBytes, recByte, bytesBe, byteOf, txTlpRec, BitVec.extractLsb'_append_eq_of_le,
    BitVec.extractLsb'_append_eq_of_add_le, Nat.reduceSub, Nat.reduceMul, List.cons_append, List.nil_append]

/-- A word framed is one record more, and the next word is due (R225). -/
theorem sendWord_eq {s : State} {v : Word} {rest : List Word} (hc : s.ctl = .send (v :: rest)) (w : Word)
    (last : Bool) :
    sendWord w last s =
      { s with txFrame := s.txFrame ++ (bytesBe w ++ bytesBe (txTlpLow last)), ctl := .send rest } := by
  rw [sendWord, frameWord, recBytes_txTlpRec, hc]
  rfl

/-- Settles O50: both units frame their word. -/
theorem transmitUnits : Obligations.TransmitUnits := fun _ _ _ w hc =>
  ⟨congrArg Host.Outcome.next (sendWord_eq hc w false), congrArg Host.Outcome.next (sendWord_eq hc w true)⟩

/-! ## Running the receiver to its outcome -/

/-! ### What a fetch uses up -/

/-- The words still in the buffer and the draws still to come, in a measure that each word taken lowers by 2. -/
def wordsLeft (s : State) : Nat := 2 * (s.rx.lim - s.rx.rd) + (feedBytes s.rxFeed + s.rxFeed.length)

theorem feedBytes_cons (a : ReadAnswer) (rest : List ReadAnswer) :
    feedBytes (a :: rest) = (answerBytes a).length + feedBytes rest := by
  simp [feedBytes]

theorem answerBytes_clip_le (a : ReadAnswer) : (answerBytes (clipAnswer a)).length ≤ (answerBytes a).length := by
  cases a <;> simp [clipAnswer, answerBytes]

/-- No outcome is returned, and the operation goes on. -/
structure Quiet (s t : State) : Prop where
  ctl : t.ctl = s.ctl
  replies : t.replies = s.replies
  diag : t.diag = s.diag

theorem Quiet.trans {s t u : State} (h : Quiet s t) (k : Quiet t u) : Quiet s u :=
  ⟨k.ctl.trans h.ctl, k.replies.trans h.replies, k.diag.trans h.diag⟩

/-- The outcomes that end `rx.next` (R152, R340). -/
def endsRxNext (r : Reply) : Prop := r = .noData ∨ (∃ d, r = .complete d) ∨ ∃ c d, r = .corrupt c d

/-- The operation ends with the outcome `r`; the diagnostic port is offered it if it is a Corrupt (R349). -/
structure EndsWith (r : Reply) (s t : State) : Prop where
  ctl : t.ctl = .idle
  replies : t.replies = s.replies ++ [r]
  diag : t.diag = s.diag ++ diagOf r
  outcome : endsRxNext r

theorem Quiet.endsWith {r : Reply} {s t u : State} (h : Quiet s t) (k : EndsWith r t u) : EndsWith r s u :=
  ⟨k.ctl, by rw [k.replies, h.replies], by rw [k.diag, h.diag], k.outcome⟩

theorem Quiet.emitRx {r : Reply} {s t : State} (h : Quiet s t) (hr : endsRxNext r) : EndsWith r s (emitRx r t) := by
  refine h.endsWith ⟨ctlAfterRx_idle ?_, rfl, rfl, hr⟩
  rintro rfl
  simp [endsRxNext] at hr

/-- The operation waits for a read: every draw is used and the cursor is empty (R358; log entry 1). -/
structure WaitsQuietly (s t : State) : Prop extends Quiet s t where
  rxFeed : t.rxFeed = []
  cursor : t.rx.rd = t.rx.lim

theorem Quiet.waits {s t u : State} (h : Quiet s t) (k : WaitsQuietly t u) : WaitsQuietly s u :=
  ⟨h.trans k.toQuiet, k.rxFeed, k.cursor⟩

/-- What a fetch does to the outcomes and to the words left: a word is taken quietly, or the operation ends with an
outcome, or it waits (R161, R172, R173). -/
def FetchDid (s : State) (f : Fetch) : Prop :=
  match f with
  | .word _ t => Quiet s t ∧ t.rx.st = s.rx.st ∧ wordsLeft t + 2 ≤ wordsLeft s
  | .ended t => ∃ r, EndsWith r s t
  | .waits t => WaitsQuietly s t

theorem FetchDid.of_quiet {s t : State} {f : Fetch} (hq : Quiet s t) (hst : t.rx.st = s.rx.st)
    (hw : wordsLeft t ≤ wordsLeft s) (h : FetchDid t f) : FetchDid s f := by
  cases f with
  | word q u =>
    obtain ⟨huq, hust, huw⟩ := h
    exact ⟨hq.trans huq, hust.trans hst, huw.trans hw⟩
  | ended u =>
    obtain ⟨r, hr⟩ := h
    exact ⟨r, hq.endsWith hr⟩
  | waits u => exact hq.waits h

theorem fetchRead_did (feed : List ReadAnswer) {s : State} (hfeed : s.rxFeed = feed) (hcur : s.rx.rd = s.rx.lim) :
    FetchDid s (fetchRead feed s) := by
  induction feed generalizing s with
  | nil => exact ⟨⟨rfl, rfl, rfl⟩, hfeed, hcur⟩
  | cons a rest ih =>
    have hbytes := feedBytes_cons a rest
    have hclip := answerBytes_clip_le a
    unfold fetchRead
    simp only
    split
    · refine ⟨⟨rfl, rfl, rfl⟩, rfl, ?_⟩
      simp only [wordsLeft, hfeed, State.setRx_rx, State.setRx_rxFeed, tookAnswer_rxFeed, loadBuffer_lim, loadBuffer_rd,
        List.length_cons]
      omega
    · rcases emptyRead_cases ((tookAnswer a rest s).setRx (emptyCursor (tookAnswer a rest s).rx)) with
        ⟨-, e⟩ | ⟨-, -, e⟩ | ⟨-, -, e⟩ <;> rw [e]
      · exact ⟨_, Quiet.emitRx ⟨rfl, rfl, rfl⟩ (.inl rfl)⟩
      · exact ⟨_, Quiet.emitRx ⟨rfl, rfl, rfl⟩ (.inr (.inr ⟨_, _, rfl⟩))⟩
      · show FetchDid s (fetchRead rest _)
        refine FetchDid.of_quiet ?_ ?_ ?_ (ih rfl rfl)
        · exact ⟨rfl, rfl, rfl⟩
        · rfl
        · simp only [wordsLeft, hfeed, State.setRx_rx, State.setRx_rxFeed, tookAnswer_rxFeed, emptyCursor_lim,
            emptyCursor_rd, List.length_cons]
          omega

theorem fetchWord_did {s : State} (hcur : s.rx.rd ≤ s.rx.lim) : FetchDid s (fetchWord s) := by
  by_cases hc : s.rx.rd = s.rx.lim
  · rw [fetchWord, if_pos hc]
    exact fetchRead_did _ rfl hc
  · rw [fetchWord_buffered hc]
    refine ⟨⟨rfl, rfl, rfl⟩, rfl, ?_⟩
    simp only [wordsLeft, State.setRx_rx, State.setRx_rxFeed]
    omega

/-! ### What a dispatch of RX_DECODE uses up -/

/-- How far a group is from its end, in dispatches that consume no word: none before a status word, the end of the
group inside one (R163), and before that the end of a TLP (R170). -/
def groupLeft (st : RxState) : Nat :=
  match st with
  | .awaitingStatus => 0
  | .inData | .inRemainder => 1
  | .tlpComplete => 2

theorem groupLeft_le (st : RxState) : groupLeft st ≤ 2 := by cases st <;> decide

/-- A bound on the dispatches a receive operation can still take. -/
def rxWork (s : State) : Nat := wordsLeft s + groupLeft s.rx.st

/-- What a dispatch of RX_DECODE does: it waits; it ends the operation with an outcome; or it uses up work, quietly or
with an OutOfSync, which ends RX_DECODE and goes on in `rx.next` (R160, R152). -/
inductive RxDid (s : State) : Tick → Prop where
  | waits {t : State} (h : WaitsQuietly s t) : RxDid s (.waits t)
  | ended {t : State} {r : Reply} (h : EndsWith r s t) : RxDid s (.go t)
  | quiet {t : State} (h : Quiet s t) (hw : rxWork t < rxWork s) : RxDid s (.go t)
  | outOfSync {t : State} (hctl : t.ctl = ctlAfterRx s.ctl .outOfSync)
      (hreplies : t.replies = s.replies ++ [.outOfSync]) (hdiag : t.diag = s.diag)
      (hw : rxWork t < rxWork s) : RxDid s (.go t)

theorem stepAwait_did {s : State} (hcur : s.rx.rd ≤ s.rx.lim) : RxDid s (stepAwait s) := by
  have hf := fetchWord_did hcur
  unfold stepAwait
  split <;> rename_i e <;> rw [e] at hf
  · rename_i q t
    obtain ⟨hq, hst, hw⟩ := hf
    rcases takeStatus_cases (frameValue t.cfg.frameOrder q) t with ⟨-, e⟩ | ⟨-, e⟩ | ⟨-, e⟩ <;> rw [e]
    · exact .quiet hq (by simp only [rxWork, hst]; omega)
    · refine .quiet (hq.trans ⟨rfl, rfl, rfl⟩) (show wordsLeft t + 1 < _ from ?_)
      unfold rxWork
      omega
    · refine .outOfSync (by rw [emitRx_ctl, State.setRx_ctl, hq.ctl])
        (by rw [emitRx_replies, State.setRx_replies, hq.replies]) ((List.append_nil _).trans hq.diag)
        (show wordsLeft t + groupLeft t.rx.st < _ from ?_)
      rw [hst]
      unfold rxWork
      omega
  · obtain ⟨r, hr⟩ := hf
    exact .ended hr
  · exact .waits hf

theorem consumeSlot_did {s : State} (hcur : s.rx.rd ≤ s.rx.lim) (hst : groupLeft s.rx.st = 1) (c : Nibble) :
    RxDid s (consumeSlot c s) := by
  have hf := fetchWord_did hcur
  unfold consumeSlot
  split
  · refine .quiet ⟨rfl, rfl, rfl⟩ (show wordsLeft s + 0 < _ from ?_)
    unfold rxWork
    omega
  · split <;> rename_i e <;> rw [e] at hf
    · rename_i q t
      obtain ⟨hq, -, hw⟩ := hf
      refine .quiet (hq.trans ⟨rfl, rfl, rfl⟩) ?_
      have hleft : wordsLeft (t.setRx (takeSlot t.cfg.accCap c q t.rx)) = wordsLeft t := by
        rcases slotAppend_cases t.cfg.accCap c q t.rx with e | e
        · simp [wordsLeft, takeSlot, e]
        · obtain ⟨-, -, -, -, hrd, hlim, -⟩ := append_frame t.cfg.accCap q t.rx
          simp [wordsLeft, takeSlot, e, hrd, hlim]
      have hle := groupLeft_le (t.setRx (takeSlot t.cfg.accCap c q t.rx)).rx.st
      unfold rxWork
      omega
    · obtain ⟨r, hr⟩ := hf
      exact .ended hr
    · exact .waits hf

theorem completeReply_endsRxNext (r : Receiver) : endsRxNext (completeReply r) := by
  unfold completeReply
  split
  · exact .inr (.inl ⟨_, rfl⟩)
  · exact .inr (.inr ⟨_, _, rfl⟩)

theorem rxTick_did {s : State} (hcur : s.rx.rd ≤ s.rx.lim) : RxDid s (rxTick s) := by
  unfold rxTick
  split <;> rename_i hst
  · exact stepAwait_did hcur
  · exact consumeSlot_did hcur (by rw [hst]; rfl) _
  · exact consumeSlot_did hcur (by rw [hst]; rfl) _
  · exact .ended (Quiet.emitRx ⟨rfl, rfl, rfl⟩ (completeReply_endsRxNext s.rx))

/-! ### Running a receive operation -/

/-- Where a receive operation stands once `n` RX_DECODEs have ended with OutOfSync and the next has begun: it has ended
with an outcome, which for RX_DECODE itself may be an OutOfSync too, or it waits for a read (R160, R152, R358). -/
inductive RxStands (again : Bool) (s : State) (n : Nat) : State → Prop where
  | ended {t : State} (r : Reply) (hctl : t.ctl = .idle)
      (hreplies : t.replies = s.replies ++ List.replicate n .outOfSync ++ [r]) (hdiag : t.diag = s.diag ++ diagOf r)
      (hr : endsRxNext r ∨ again = false ∧ r = .outOfSync) : RxStands again s n t
  | waits {t : State} (hctl : t.ctl = .rx again) (hreplies : t.replies = s.replies ++ List.replicate n .outOfSync)
      (hdiag : t.diag = s.diag) (hfeed : t.rxFeed = []) (hcur : t.rx.rd = t.rx.lim) : RxStands again s n t

theorem RxStands.of_quiet {again : Bool} {s t u : State} {n : Nat} (hq : Quiet s t) (h : RxStands again t n u) :
    RxStands again s n u := by
  cases h with
  | ended r hctl hreplies hdiag hr => exact .ended r hctl (hq.replies ▸ hreplies) (hq.diag ▸ hdiag) hr
  | waits hctl hreplies hdiag hfeed hcur => exact .waits hctl (hq.replies ▸ hreplies) (hq.diag ▸ hdiag) hfeed hcur

theorem RxStands.of_outOfSync {again : Bool} {s t u : State} {n : Nat}
    (hreplies : t.replies = s.replies ++ [.outOfSync]) (hdiag : t.diag = s.diag)
    (h : RxStands again t n u) : RxStands again s (n + 1) u := by
  have hmore : t.replies ++ List.replicate n .outOfSync = s.replies ++ List.replicate (n + 1) .outOfSync := by
    rw [hreplies, List.replicate_succ, List.append_assoc]
    rfl
  cases h with
  | ended r hctl hrep hd hr => exact .ended r hctl (hmore ▸ hrep) (hdiag ▸ hd) hr
  | waits hctl hrep hd hfeed hcur => exact .waits hctl (hmore ▸ hrep) (hdiag ▸ hd) hfeed hcur

/-- A receive operation with more fuel than work runs until it ends or waits; only `rx.next` goes on from an
OutOfSync (R160, R152). -/
theorem run_rx {again : Bool} (fuel : Nat) {s : State} (hok : MachineOk s) (hctl : s.ctl = .rx again)
    (hw : rxWork s < fuel) : ∃ n, (again = false → n = 0) ∧ RxStands again s n (run fuel s) := by
  induction fuel generalizing s with
  | zero => omega
  | succ fuel ih =>
    have hne : s.ctl ≠ .idle := by rw [hctl]; nofun
    have hrx : inRx s.ctl = true := by rw [hctl]; rfl
    have hdid := rxTick_did hok.rx.cursor.rd_le
    have hok' := hok.rxTick hrx
    rw [← tick_of_inRx hrx] at hdid hok'
    cases e : tick s with
    | waits t =>
      rw [e] at hdid
      rw [run_waits fuel hne e]
      cases hdid with
      | waits h =>
        exact ⟨0, fun _ => rfl, .waits (h.ctl.trans hctl) (by simp [h.replies]) h.diag h.rxFeed h.cursor⟩
    | go t =>
      rw [e] at hdid hok'
      have hok' : MachineOk t := hok'
      rw [run_go fuel hne e]
      cases hdid with
      | @ended _ r h =>
        rw [run_idle fuel h.ctl]
        exact ⟨0, fun _ => rfl, .ended r h.ctl (by simp [h.replies]) h.diag (.inl h.outcome)⟩
      | quiet h hlt =>
        obtain ⟨n, hn, hstands⟩ := ih hok' (h.ctl.trans hctl) (by omega)
        exact ⟨n, hn, hstands.of_quiet h⟩
      | outOfSync hc hreplies hdiag hlt =>
        rw [hctl] at hc
        cases again with
        | false =>
          have hidle : t.ctl = .idle := hc
          rw [run_idle fuel hidle]
          exact ⟨0, fun _ => rfl,
            .ended .outOfSync hidle (by simp [hreplies]) (by simp [hdiag, diagOf]) (.inr ⟨rfl, rfl⟩)⟩
        | true =>
          obtain ⟨n, -, hstands⟩ := ih hok' hc (by omega)
          exact ⟨n + 1, nofun, hstands.of_outOfSync hreplies hdiag⟩

theorem rxWork_lt_dispatchBound (s : State) : rxWork s < dispatchBound s := by
  have hle := groupLeft_le s.rx.st
  unfold rxWork wordsLeft dispatchBound
  omega

/-- The answers read are the first of the draws (R15, R91). -/
theorem Reads.take {s t : State} (h : Reads s t) : ∃ k, t.rxFeed = s.rxFeed.drop k ∧
    t.trace = s.trace ++ (s.rxFeed.take k).map fun a => .didRead (clipAnswer a) := by
  obtain ⟨as, hfeed, htrace⟩ := h
  exact ⟨as.length, by simp [hfeed], by simp [hfeed, htrace]⟩

/-- A receive operation begun and run: it reads the transport in order, leaves everything outside the receiver and its
ports alone, and ends or waits (R160, R152, R340, R358). -/
theorem runOp_rx {s : State} (hok : MachineOk s) (hc : s.ctl = .idle) (again : Bool) :
    ∃ t k n, runOp (s.setCtl (.rx again)) = t ∧
      t = { s with
        rx := t.rx, ctl := t.ctl, replies := t.replies, diag := t.diag
        rxFeed := s.rxFeed.drop k, trace := s.trace ++ (s.rxFeed.take k).map fun a => .didRead (clipAnswer a) } ∧
      (again = false → n = 0) ∧ RxStands again s n t := by
  obtain ⟨n, hn, hstands⟩ := run_rx _ (hok.startRx hc again) rfl (rxWork_lt_dispatchBound (s.setCtl (.rx again)))
  obtain ⟨hframe, hacts⟩ := runOp_receives (s := s.setCtl (.rx again)) rfl
  obtain ⟨k, hfeed, htrace⟩ := hacts.reads.take
  refine ⟨_, k, n, rfl, ?_, hn, ?_⟩
  · obtain ⟨hcfg, hsession, htxn, hport, htx, hframe, hmem, hdraws⟩ := hframe
    cases e : runOp (s.setCtl (.rx again))
    simp_all
  · cases hstands with
    | ended r hctl hreplies hdiag hr => exact .ended r hctl hreplies hdiag hr
    | waits hctl hreplies hdiag hfeed hcur => exact .waits hctl hreplies hdiag hfeed hcur

theorem MachineOk.cursorOk {s : State} (h : MachineOk s) : cursorOk s.rx = true := by
  simp [Machine.cursorOk, h.rx.cursor.rd_le, h.rx.cursor.lim_le]

theorem withCursor_of_cursorOk {s : State} (h : cursorOk s.rx = true) (t : State) : withCursor s t = .next t := by
  simp [withCursor, h]

/-- Settles O28: `rx.next` is the receive operation that goes on from an OutOfSync. -/
theorem rxNextOutcome : Obligations.RxNextOutcome := by
  intro s hinv hc
  have hok := (machineOk_iff s).mpr hinv
  obtain ⟨t, k, n, hrun, ht, -, hstands⟩ := runOp_rx hok hc true
  refine ⟨t, k, n, (withCursor_of_cursorOk hok.cursorOk _).trans (congrArg _ hrun), ht, ?_⟩
  cases hstands with
  | ended r hctl hreplies hdiag hr =>
    refine .inl ⟨hctl, ?_⟩
    rcases hr with (rfl | ⟨d, rfl⟩ | ⟨c, d, rfl⟩) | ⟨hfalse, -⟩
    · exact .inl ⟨hreplies, hdiag.trans (List.append_nil _)⟩
    · exact .inr (.inl ⟨d, hreplies, hdiag.trans (List.append_nil _)⟩)
    · exact .inr (.inr ⟨c, d, hreplies, hdiag⟩)
    · cases hfalse
  | waits hctl hreplies hdiag hfeed hcur => exact .inr ⟨hctl, hreplies, hdiag, hfeed, hcur⟩

/-! ## Register transactions run to their end -/

/-! ### Counted dispatches -/

/-- `k` dispatches of an operation in progress lead from one state to another. -/
inductive Goes : Nat → State → State → Prop where
  | refl (s : State) : Goes 0 s s
  | step {k : Nat} {s t u : State} (hc : s.ctl ≠ .idle) (e : tick s = .go t) (h : Goes k t u) : Goes (k + 1) s u

theorem Goes.trans {k l : Nat} {s t u : State} (h : Goes k s t) (h' : Goes l t u) : Goes (k + l) s u := by
  induction h with
  | refl s => rwa [Nat.zero_add]
  | step hc e _ ih =>
    rw [Nat.add_right_comm]
    exact .step hc e (ih h')

theorem Goes.cons {k : Nat} {s t u : State} (h : Goes 1 s t) (h' : Goes k t u) : Goes (k + 1) s u :=
  Nat.add_comm 1 k ▸ h.trans h'

theorem run_of_goes {k n : Nat} {s t : State} (h : Goes k s t) (hidle : t.ctl = .idle) (hk : k ≤ n) :
    run n s = t := by
  induction h generalizing n with
  | refl s => exact run_idle n hidle
  | step hc e _ ih =>
    obtain ⟨n, rfl⟩ : ∃ m, n = m + 1 := ⟨n - 1, by omega⟩
    rw [run_go n hc e]
    exact ih hidle (by omega)

theorem runOp_of_goes {k : Nat} {s t : State} (h : Goes k s t) (hidle : t.ctl = .idle) (hk : k ≤ dispatchBound s) :
    runOp s = t := run_of_goes h hidle hk

theorem goes_regTick {s t : State} (hc : s.ctl = .reg) (e : regTick s = .go t) : Goes 1 s t := by
  have htick : tick s = .go t := by simpa only [tick, hc] using e
  exact .step (by rw [hc]; nofun) htick (.refl t)

/-! ### The phases before the harvest -/

section
variable {s : State} (hc : s.ctl = .reg)
include hc

theorem goes_check (hp : s.txn.phase = .idle) {t : State} (e : checkOperands s = t) : Goes 1 s t :=
  goes_regTick hc (by simp only [regTick, hp, e])

theorem goes_issue (hp : s.txn.phase = .issue) {r : Rec} (hr : s.txn.recs[s.txn.put]? = some r) {t : State}
    (e : issueRecord r s = t) : Goes 1 s t :=
  goes_regTick hc (by simp only [regTick, hp, hr, e])

theorem goes_flush (hp : s.txn.phase = .issue) (hr : s.txn.recs[s.txn.put]? = none) {t : State}
    (e : flushBatch s = t) : Goes 1 s t :=
  goes_regTick hc (by simp only [regTick, hp, hr, e])

theorem goes_delay (hp : s.txn.phase = .wait) : Goes 1 s (responseDelay s) :=
  goes_regTick hc (by simp only [regTick, hp])

theorem goes_harvest (hp : s.txn.phase = .harvest) {t : State} (e : harvestTick s = .go t) : Goes 1 s t :=
  goes_regTick hc (by simp only [regTick, hp, e])

theorem goes_finish (hp : s.txn.phase = .done) : Goes 1 s (finishPhase s) :=
  goes_regTick hc (by simp only [regTick, hp])
end

theorem transportWrite_ok {s : State} {tx : List WriteAnswer} (h : s.txFeed = .ok :: tx) (bs : List Byte) :
    transportWrite bs s = (true, { s with txFeed := tx, trace := s.trace ++ [.wrote bs] }) := by
  obtain ⟨hnext, htook⟩ := nextWrite_cons h
  simp only [transportWrite, hnext, htook]
  rfl

theorem transportWrite_tErr {s : State} {k : Nat} {tx : List WriteAnswer} (h : s.txFeed = .tErr k :: tx)
    (bs : List Byte) :
    transportWrite bs s = (false, { s with txFeed := tx, trace := s.trace ++ [.writeFailed (bs.take k)] }) := by
  obtain ⟨hnext, htook⟩ := nextWrite_cons h
  simp only [transportWrite, hnext, htook]
  rfl

theorem issueRecord_of_fits {s : State} (h : s.txn.batch.length + 8 ≤ s.cfg.txBatchBytes) (r : Rec) :
    issueRecord r s = putRecord r s := if_neg (by omega)

/-- The last batch is written (R284). -/
theorem flushBatch_ok {s : State} {tx : List WriteAnswer} (hb : s.txn.batch ≠ []) (h : s.txFeed = .ok :: tx) :
    flushBatch s = afterIssue { s with txFeed := tx, trace := s.trace ++ [.wrote s.txn.batch] } := by
  rw [flushBatch, if_neg hb, transportWrite_ok h]

/-- The write of the last batch errs (R284, R359). -/
theorem flushBatch_tErr {s : State} {k : Nat} {tx : List WriteAnswer} (hb : s.txn.batch ≠ [])
    (h : s.txFeed = .tErr k :: tx) :
    flushBatch s =
      finishTxn .transportError { s with txFeed := tx, trace := s.trace ++ [.writeFailed (s.txn.batch.take k)] } := by
  rw [flushBatch, if_neg hb, transportWrite_tErr h]

/-! ### A transaction of one record -/

/-- A call whose operands pass the checks of R281 and which has one record, `r`, that fits an empty batch. -/
structure OneRecord (r : Rec) (s : State) : Prop where
  ctl : s.ctl = .reg
  phase : s.txn.phase = .idle
  region : regionLegal s.txn.region = true
  ch : channelLegal s.txn.ch = true
  range : s.txn.addr + s.txn.cnt ≤ Lit.regSpaceBytes
  cnt : 0 < s.txn.cnt
  recs : txnRecs s.txn = [r]
  size : 8 ≤ s.cfg.txBatchBytes

/-- The transaction with its one record in the batch (R281, R284). -/
def oneBatch (r : Rec) (t : Txn) : Txn :=
  { t with
    phase := .issue, recs := [r], put := 1, batch := recBytes r
    out := if t.isWrite then [] else List.replicate t.cnt 0
    got := if t.isWrite then [] else List.replicate t.cnt false }

section
variable {r : Rec} {s : State} (h : OneRecord r s)
include h

theorem OneRecord.checkOperands : checkOperands s = s.setTxn { oneBatch r s.txn with put := 0, batch := [] } := by
  rcases checkOperands_cases s with ⟨hill, -⟩ | ⟨-, -, hover, -⟩ | ⟨-, -, -, hzero, -⟩ | ⟨-, -, -, -, e⟩
  · simp [h.region, h.ch] at hill
  · exact absurd h.range (by omega)
  · exact absurd h.cnt (by omega)
  · rw [e, h.recs]
    rfl

theorem OneRecord.goes_batch : Goes 2 s (s.setTxn (oneBatch r s.txn)) := by
  let s1 := s.setTxn { oneBatch r s.txn with put := 0, batch := [] }
  have hissue := goes_issue (s := s1) h.ctl rfl rfl (issueRecord_of_fits (s := s1) h.size r)
  exact (goes_check h.ctl h.phase h.checkOperands).trans hissue

/-- The one record is written, and the issue is over (R284). -/
theorem OneRecord.goes_written {tx : List WriteAnswer} (htx : s.txFeed = .ok :: tx) :
    Goes 3 s (afterIssue { s with
      txFeed := tx, trace := s.trace ++ [.wrote (recBytes r)], txn := oneBatch r s.txn }) := by
  have hflush := flushBatch_ok (s := s.setTxn (oneBatch r s.txn)) (List.cons_ne_nil _ _) htx
  exact h.goes_batch.trans (goes_flush (s := s.setTxn (oneBatch r s.txn)) h.ctl rfl rfl hflush)

/-- The write of the one record errs, and the call is over (R284, R359). -/
theorem OneRecord.goes_failed {k : Nat} {tx : List WriteAnswer} (htx : s.txFeed = .tErr k :: tx) :
    Goes 3 s (finishTxn .transportError { s with
      txFeed := tx, trace := s.trace ++ [.writeFailed ((recBytes r).take k)], txn := oneBatch r s.txn }) := by
  have hflush := flushBatch_tErr (s := s.setTxn (oneBatch r s.txn)) (List.cons_ne_nil _ _) htx
  exact h.goes_batch.trans (goes_flush (s := s.setTxn (oneBatch r s.txn)) h.ctl rfl rfl hflush)
end

/-! ### The bytes a harvest matches -/

theorem place_range (a : Half) (dA dA1 : Byte) (t : Txn) :
    (place a dA dA1 t).addr = t.addr ∧ (place a dA dA1 t).cnt = t.cnt := by
  rw [place_frame]
  exact ⟨rfl, rfl⟩

/-- What placing a response depends on: the range, the output bytes and the matched flags (R287). -/
def SameBytes (t u : Txn) : Prop := (t.addr, t.cnt, t.out, t.got) = (u.addr, u.cnt, u.out, u.got)

theorem place_of_sameBytes {t u : Txn} (h : SameBytes t u) (a : Half) (dA dA1 : Byte) :
    place a dA dA1 t = { t with out := (place a dA dA1 u).out, got := (place a dA dA1 u).got } := by
  cases t
  cases u
  simp only [SameBytes, Prod.mk.injEq] at h
  obtain ⟨rfl, rfl, rfl, rfl⟩ := h
  unfold place putByte
  simp only
  split_ifs <;> rfl

theorem place_sameBytes {t u : Txn} (h : SameBytes t u) (a : Half) (dA dA1 : Byte) :
    SameBytes (place a dA dA1 t) (place a dA dA1 u) := by
  rw [place_of_sameBytes h, place_frame a dA dA1 u]
  simp only [SameBytes, Prod.mk.injEq, and_true] at h ⊢
  obtain ⟨haddr, hcnt, -, -⟩ := h
  exact ⟨haddr, hcnt⟩

/-- Placing responses changes output bytes and matched flags only, by what it depends on only (R287). -/
theorem placeAll_of_sameBytes (qs : List Word) {t u : Txn} (h : SameBytes t u) :
    placeAll qs t = { t with out := (placeAll qs u).out, got := (placeAll qs u).got } := by
  induction qs generalizing t u with
  | nil =>
    simp only [SameBytes, Prod.mk.injEq] at h
    obtain ⟨-, -, hout, hgot⟩ := h
    simp only [placeAll, List.foldl_nil, ← hout, ← hgot]
  | cons q qs ih =>
    have hplaced := ih (place_sameBytes h (respAddr q) (byteOf q 2) (byteOf q 3))
    rw [place_of_sameBytes h] at hplaced
    rw [placeAll, List.foldl_cons, place_of_sameBytes h]
    exact hplaced

theorem placeAll_length (qs : List Word) (t : Txn) :
    (placeAll qs t).out.length = t.out.length ∧ (placeAll qs t).got.length = t.got.length := by
  induction qs generalizing t with
  | nil => exact ⟨rfl, rfl⟩
  | cons q qs ih =>
    obtain ⟨hout, hgot⟩ := place_length (respAddr q) (byteOf q 2) (byteOf q 3) t
    obtain ⟨iout, igot⟩ := ih (place (respAddr q) (byteOf q 2) (byteOf q 3) t)
    exact ⟨iout.trans hout, igot.trans hgot⟩

section
variable (o : FrameOrder) (addr cnt ch : Nat)

theorem harvested_append (bss : List (List Byte)) (bs : List Byte) :
    harvested o addr cnt ch (bss ++ [bs]) =
      placeAll (scan o ch (bs.take Lit.rxBufBytes)) (harvested o addr cnt ch bss) := by
  simp [harvested, placeAll]

theorem harvested_range (bss : List (List Byte)) :
    (harvested o addr cnt ch bss).addr = addr ∧ (harvested o addr cnt ch bss).cnt = cnt := by
  rw [harvested, placeAll_of_sameBytes _ rfl]
  exact ⟨rfl, rfl⟩

theorem harvested_length (bss : List (List Byte)) : (harvested o addr cnt ch bss).out.length = cnt := by
  rw [harvested, (placeAll_length _ _).1, List.length_replicate]

theorem harvestOpen_dropLast {bss : List (List Byte)} (h : harvestOpen o addr cnt ch bss) :
    harvestOpen o addr cnt ch bss.dropLast := by
  intro k hk
  have hlt : k + 1 < bss.length := by
    rw [List.length_dropLast] at hk
    omega
  obtain ⟨hgot, hlen⟩ := h k (by omega)
  rw [List.dropLast_eq_take, List.take_take, min_eq_left (by omega)]
  refine ⟨hgot, ?_⟩
  rwa [List.getD_eq_getElem?_getD, List.getElem?_take_of_lt (by omega), ← List.getD_eq_getElem?_getD]
end

/-! ### The reads of a harvest -/

theorem groupMatches_length (v : Word) (ch j : Nat) (ws : List Word) :
    (groupMatches v ch j ws).length ≤ min (Lit.slotsPerGroup - j) ws.length := by
  induction ws generalizing j with
  | nil => simp [groupMatches]
  | cons w ws ih =>
    have hnext := ih (j + 1)
    unfold groupMatches
    split_ifs <;> simp only [List.length_cons, List.length_nil] <;> omega

/-- The scan takes no more words than the buffer has (R285). -/
theorem scanWords_length (o : FrameOrder) (ch skip : Nat) (ws : List Word) :
    (scanWords o ch skip ws).length ≤ ws.length - skip := by
  induction ws generalizing skip with
  | nil => simp [scanWords]
  | cons w ws ih =>
    cases skip with
    | zero =>
      have h0 := ih 0
      have h7 := ih 7
      have hgroup := groupMatches_length (frameValue o w) ch 0 ws
      simp only [Lit.slotsPerGroup] at hgroup
      simp only [scanWords]
      split_ifs <;> simp only [List.length_cons, List.length_append] <;> omega
    | succ k =>
      have hk := ih k
      simp only [scanWords, List.length_cons]
      omega

theorem wordsOf_length (bs : List Byte) : (wordsOf bs).length ≤ bs.length := by
  induction bs using wordsOf.induct with
  | case1 b0 b1 b2 b3 rest ih =>
    simp only [wordsOf, List.length_cons]
    omega
  | case2 bs h =>
    rw [wordsOf]
    · simp
    · exact h

theorem scan_length (o : FrameOrder) (ch : Nat) (bs : List Byte) : (scan o ch bs).length ≤ bs.length := by
  have hscan := scanWords_length o ch 0 (wordsOf bs)
  have hwords := wordsOf_length bs
  unfold scan
  omega

/-- A response taken is placed and no longer pending (R285, R287). -/
theorem harvestTick_response {s : State} {q : Word} {qs : List Word} (h : s.txn.pend = q :: qs) :
    let u := place (respAddr q) (byteOf q 2) (byteOf q 3) s.txn
    harvestTick s = .go (s.setTxn { s.txn with out := u.out, got := u.got, pend := qs }) := by
  simp only [harvestTick, h, takeResponse, List.tail_cons]
  conv_lhs => rw [place_frame]

theorem harvestTick_read {s : State} (hp : s.txn.pend = []) (hg : harvestGoesOn s.cfg s.txn = true) :
    harvestTick s = harvestRead s := by
  simp only [harvestTick, hp, hg, if_true]

theorem harvestTick_end {s : State} (hp : s.txn.pend = []) (hg : harvestGoesOn s.cfg s.txn = false) :
    harvestTick s = .go (finishTxn (harvestResult s.txn) s) := by
  simp only [harvestTick, hp, hg, Bool.false_eq_true, if_false]

/-- The responses of a buffer placed one after another (R285, R287). -/
theorem goes_responses (qs : List Word) {s : State} (hc : s.ctl = .reg) (hp : s.txn.phase = .harvest)
    (hpend : s.txn.pend = qs) :
    Goes qs.length s (s.setTxn { s.txn with
      pend := [], out := (placeAll qs s.txn).out, got := (placeAll qs s.txn).got }) := by
  induction qs generalizing s with
  | nil =>
    have hs : s = s.setTxn { s.txn with pend := [], out := s.txn.out, got := s.txn.got } := by
      obtain ⟨_, _, _, ⟨⟩, _⟩ := s
      simp_all [State.setTxn]
    exact hs ▸ Goes.refl s
  | cons q qs ih =>
    let u := place (respAddr q) (byteOf q 2) (byteOf q 3) s.txn
    let s1 := s.setTxn { s.txn with out := u.out, got := u.got, pend := qs }
    have hsame : SameBytes s1.txn u := by
      obtain ⟨haddr, hcnt⟩ := place_range (respAddr q) (byteOf q 2) (byteOf q 3) s.txn
      simp only [SameBytes, u, haddr, hcnt, s1, State.setTxn_txn]
    have hrest := ih (s := s1) hc hp rfl
    rw [placeAll_of_sameBytes qs hsame] at hrest
    exact (goes_harvest (t := s1) hc hp (harvestTick_response hpend)).cons hrest

/-! ### A harvest over any number of reads -/

/-- A read transaction at the start of its harvest: nothing read, nothing matched (R290). -/
structure HarvestStart (s : State) : Prop where
  ctl : s.ctl = .reg
  phase : s.txn.phase = .harvest
  cnt : 0 < s.txn.cnt
  k : s.txn.k = 0
  buf : s.txn.buf = []
  pend : s.txn.pend = []
  out : s.txn.out = List.replicate s.txn.cnt 0
  got : s.txn.got = List.replicate s.txn.cnt false

/-- The bytes the transaction's harvest has matched after these reads. -/
def matched (s : State) (bss : List (List Byte)) : Txn := harvested s.cfg.frameOrder s.txn.addr s.txn.cnt s.txn.ch bss

/-- The harvest after these reads, their responses placed; `rest` are the draws still to come (R288). -/
def afterReads (bss : List (List Byte)) (rest : List ReadAnswer) (s : State) : State :=
  { s with
    rxFeed := rest, trace := s.trace ++ bss.map fun bs => .didRead (.bytes (bs.take Lit.rxBufBytes))
    txn := { s.txn with
      k := bss.length, buf := (bss.getLastD []).take Lit.rxBufBytes
      out := (matched s bss).out, got := (matched s bss).got } }

/-- What the reads bring, with one more for each: a bound on the dispatches that take them. -/
def readsCost (bss : List (List Byte)) : Nat := (bss.map fun bs => bs.length + 1).sum

theorem readsCost_append (bss : List (List Byte)) (bs : List Byte) :
    readsCost (bss ++ [bs]) = readsCost bss + (bs.length + 1) := by
  simp [readsCost]

theorem harvestGoesOn_afterReads (s : State) (bss : List (List Byte)) (rest : List ReadAnswer) :
    harvestGoesOn s.cfg (afterReads bss rest s).txn =
      (decide (bss.length < s.cfg.harvestReads) && !allGot (matched s bss) &&
        (decide (bss.length = 0) || decide (4 ≤ ((bss.getLastD []).take Lit.rxBufBytes).length))) := rfl

/-- The last of the reads of a whole harvest ends it (R288). -/
theorem harvestGoesOn_of_ends {s : State} {bss : List (List Byte)} (rest : List ReadAnswer)
    (hends : harvestEnds s.cfg s.txn.addr s.txn.cnt s.txn.ch bss) :
    harvestGoesOn s.cfg (afterReads bss rest s).txn = false := by
  obtain ⟨hne, -, -, hlast⟩ := hends
  have hpos : bss.length ≠ 0 := fun e => hne (List.length_eq_zero_iff.mp e)
  rw [harvestGoesOn_afterReads]
  rcases hlast with hall | hlen | hshort
  · rw [show allGot (matched s bss) = true from hall]
    simp
  · simp [hlen]
  · have hbuf : ¬ 4 ≤ ((bss.getLastD []).take Lit.rxBufBytes).length := by
      rw [List.length_take]
      omega
    simp only [hpos, hbuf, decide_false, Bool.or_false, Bool.and_false]

section
variable {s : State} (h : HarvestStart s)
include h

theorem HarvestStart.afterReads_nil {rest : List ReadAnswer} (hfeed : s.rxFeed = rest) :
    afterReads [] rest s = s := by
  obtain ⟨-, -, -, hk, hbuf, -, hout, hgot⟩ := h
  have hm : (matched s []).out = s.txn.out ∧ (matched s []).got = s.txn.got := ⟨hout.symm, hgot.symm⟩
  simp only [afterReads, hm.1, hm.2]
  obtain ⟨_, _, _, ⟨⟩, _⟩ := s
  simp_all

/-- The harvest goes on after reads that leave it open, below `HARVEST_READS` (R288). -/
theorem HarvestStart.goesOn {bss : List (List Byte)} {rest : List ReadAnswer} (hlen : bss.length < s.cfg.harvestReads)
    (hopen : harvestOpen s.cfg.frameOrder s.txn.addr s.txn.cnt s.txn.ch bss) :
    harvestGoesOn s.cfg (afterReads bss rest s).txn = true := by
  have hstate : allGot (matched s bss) = false ∧
      (bss.length = 0 ∨ 4 ≤ ((bss.getLastD []).take Lit.rxBufBytes).length) := by
    rcases List.eq_nil_or_concat' bss with rfl | ⟨init, b, rfl⟩
    · obtain ⟨n, hn⟩ := Nat.exists_eq_succ_of_ne_zero h.cnt.ne'
      exact ⟨by simp [allGot, matched, harvested, placeAll, hn, List.replicate_succ], .inl rfl⟩
    · obtain ⟨hgot, hlast⟩ := hopen init.length (by simp)
      rw [List.take_of_length_le (by simp)] at hgot
      have hb : 4 ≤ b.length := by simpa using hlast
      refine ⟨hgot, .inr ?_⟩
      rw [List.getLastD_concat, List.length_take]
      exact le_min (by decide) hb
  obtain ⟨hall, hbuf⟩ := hstate
  rw [harvestGoesOn_afterReads]
  simp only [hall, hlen, decide_true, Bool.not_false, Bool.and_true, Bool.true_and, Bool.or_eq_true,
    decide_eq_true_eq]
  exact hbuf

/-- One more read of the harvest, and the places of its responses (R288). -/
theorem HarvestStart.goes_read {bss : List (List Byte)} {bs : List Byte} {rest : List ReadAnswer}
    (hlen : bss.length < s.cfg.harvestReads)
    (hopen : harvestOpen s.cfg.frameOrder s.txn.addr s.txn.cnt s.txn.ch bss) :
    ∃ k ≤ bs.length + 1, Goes k (afterReads bss (.bytes bs :: rest) s) (afterReads (bss ++ [bs]) rest s) := by
  let s0 := afterReads bss (.bytes bs :: rest) s
  let qs := scan s.cfg.frameOrder s.txn.ch (bs.take Lit.rxBufBytes)
  let s1 := (tookAnswer (.bytes bs) rest s0).setTxn { s0.txn with
    k := s0.txn.k + 1, buf := bs.take Lit.rxBufBytes, pend := qs }
  have hread : harvestTick s0 = .go s1 := by
    rw [harvestTick_read (s := s0) h.pend (h.goesOn hlen hopen)]
    rfl
  have hsame : SameBytes s1.txn (matched s bss) := by
    obtain ⟨haddr, hcnt⟩ := harvested_range s.cfg.frameOrder s.txn.addr s.txn.cnt s.txn.ch bss
    simp only [SameBytes, matched, haddr, hcnt]
    rfl
  have hplace := goes_responses qs (s := s1) h.ctl h.phase rfl
  rw [placeAll_of_sameBytes qs hsame] at hplace
  have hend : s1.setTxn { s1.txn with
      pend := [], out := (placeAll qs (matched s bss)).out, got := (placeAll qs (matched s bss)).got } =
      afterReads (bss ++ [bs]) rest s := by
    simp [s1, s0, afterReads, matched, harvested_append, State.setTxn, tookAnswer, clipAnswer, h.pend, qs]
  rw [← hend]
  have hscan := scan_length s.cfg.frameOrder s.txn.ch (bs.take Lit.rxBufBytes)
  have htake := List.length_take_le' Lit.rxBufBytes bs
  have hlen' : qs.length ≤ bs.length := hscan.trans htake
  exact ⟨qs.length + 1, by omega, (goes_harvest (s := s0) (t := s1) h.ctl h.phase hread).cons hplace⟩

/-- The reads of a harvest one after another, each with the places of its responses (R288). -/
theorem HarvestStart.goes_reads (bss : List (List Byte)) {rest : List ReadAnswer}
    (hfeed : s.rxFeed = bss.map .bytes ++ rest) (hlen : bss.length ≤ s.cfg.harvestReads)
    (hopen : harvestOpen s.cfg.frameOrder s.txn.addr s.txn.cnt s.txn.ch bss.dropLast) :
    ∃ k ≤ readsCost bss, Goes k s (afterReads bss rest s) := by
  induction bss using List.reverseRecOn generalizing rest with
  | nil => exact ⟨0, le_rfl, (h.afterReads_nil hfeed).symm ▸ Goes.refl s⟩
  | append_singleton bss bs ih =>
    rw [List.dropLast_concat] at hopen
    rw [List.length_append, List.length_singleton] at hlen
    obtain ⟨k, hk, hgo⟩ := ih (rest := .bytes bs :: rest) (by simp [hfeed]) (by omega)
      (harvestOpen_dropLast _ _ _ _ hopen)
    obtain ⟨l, hl, hread⟩ := h.goes_read (bs := bs) (rest := rest) (by omega) hopen
    exact ⟨k + l, by rw [readsCost_append]; omega, hgo.trans hread⟩

/-- A whole harvest: its reads, and then its end with the result (R288, R289). -/
theorem HarvestStart.goes_end (bss : List (List Byte)) {rest : List ReadAnswer}
    (hfeed : s.rxFeed = bss.map .bytes ++ rest) (hends : harvestEnds s.cfg s.txn.addr s.txn.cnt s.txn.ch bss) :
    ∃ k ≤ readsCost bss + 1, Goes k s
      (finishTxn (if allGot (matched s bss) then .ok else .incomplete) (afterReads bss rest s)) := by
  obtain ⟨-, hlen, hopen, -⟩ := id hends
  obtain ⟨k, hk, hgo⟩ := h.goes_reads bss hfeed hlen hopen
  have htick := harvestTick_end (s := afterReads bss rest s) h.pend (harvestGoesOn_of_ends (s := s) rest hends)
  exact ⟨k + 1, by omega, hgo.trans (goes_harvest (s := afterReads bss rest s) h.ctl h.phase htick)⟩

/-- A read of the harvest errs, and the call is over (R288, R359). -/
theorem HarvestStart.goes_tErr (bss : List (List Byte)) {rest : List ReadAnswer}
    (hfeed : s.rxFeed = bss.map .bytes ++ .tErr :: rest) (hlen : bss.length < s.cfg.harvestReads)
    (hopen : harvestOpen s.cfg.frameOrder s.txn.addr s.txn.cnt s.txn.ch bss) :
    ∃ k ≤ readsCost bss + 1, Goes k s
      (finishTxn .transportError (tookAnswer .tErr rest (afterReads bss (.tErr :: rest) s))) := by
  obtain ⟨k, hk, hgo⟩ := h.goes_reads bss hfeed hlen.le (harvestOpen_dropLast _ _ _ _ hopen)
  have htick : harvestTick (afterReads bss (.tErr :: rest) s) = .go _ :=
    harvestTick_read (s := afterReads bss (.tErr :: rest) s) h.pend (h.goesOn hlen hopen)
  exact ⟨k + 1, by omega, hgo.trans (goes_harvest (s := afterReads bss (.tErr :: rest) s) h.ctl h.phase htick)⟩
end

theorem readsCost_le_feed (bss : List (List Byte)) (rest : List ReadAnswer) :
    readsCost bss ≤ feedBytes (bss.map .bytes ++ rest) + (bss.map ReadAnswer.bytes ++ rest).length := by
  induction bss with
  | nil => exact Nat.zero_le _
  | cons bs bss ih =>
    rw [List.map_cons, List.cons_append, feedBytes_cons, List.length_cons]
    simp only [readsCost, List.map_cons, List.sum_cons, answerBytes] at ih ⊢
    omega

/-- The fuel of an operation covers the reads its draws bring (R175). -/
theorem readsCost_le_dispatchBound {s : State} {bss : List (List Byte)} {rest : List ReadAnswer}
    (hfeed : s.rxFeed = bss.map .bytes ++ rest) : readsCost bss + 64 ≤ dispatchBound s := by
  have hle := readsCost_le_feed bss rest
  rw [← hfeed] at hle
  unfold dispatchBound
  omega

/-! ### Transactions of one byte -/

/-- The state once a register operation has ended: the draws still to come, the free values drawn, the events at the
transport and the outcomes returned (R44, R348). -/
def opEnded (tx : List WriteAnswer) (rx : List ReadAnswer) (n : Nat) (ev : List PortEvent) (rs : List Reply)
    (s : State) : State :=
  { s with
    ctl := .idle, txn := Txn.none, txFeed := tx, rxFeed := rx, draws := s.draws + n
    trace := s.trace ++ ev, replies := s.replies ++ rs }

theorem opEnded_opEnded (tx tx' : List WriteAnswer) (rx rx' : List ReadAnswer) (n n' : Nat) (ev ev' : List PortEvent)
    (rs rs' : List Reply) (s : State) :
    opEnded tx' rx' n' ev' rs' (opEnded tx rx n ev rs s) = opEnded tx' rx' (n + n') (ev ++ ev') (rs ++ rs') s := by
  simp [opEnded, Nat.add_assoc]

/-- A range of one byte lies in one pair (R283). -/
theorem pairs_one (a : Nat) : pairs a 1 = [a - a % 2] := by
  have hone : (a + 1 - (a - a % 2) + 1) / 2 = 1 := by omega
  simp only [pairs, hone]
  rfl

theorem readWire_one (a : Nat) (region : Half) (ch : Nat) :
    readWire a 1 region ch = recBytes (readRec region ch (a - a % 2)) := by
  rw [readWire, pairs_one]
  exact List.append_nil _

theorem writeWire_one (a : Nat) (v : Byte) (region : Half) (ch : Nat) :
    writeWire a [v] region ch = recBytes (writeRec a [v] region ch (a - a % 2)) := by
  rw [writeWire, List.length_singleton, pairs_one]
  exact List.append_nil _

section
variable {a ch : Nat} {region : Half} {s : State} (hr : regionLegal region = true) (hch : channelLegal ch = true)
  (ha : a < 4096) (hsize : 8 ≤ s.cfg.txBatchBytes)
include hr hch ha hsize

theorem oneRecord_startRead (cont : Cont) :
    OneRecord (readRec region ch (a - a % 2)) (startRead a 1 region ch cont s) :=
  ⟨rfl, rfl, hr, hch, ha, Nat.one_pos, congrArg (List.map _) (pairs_one a), hsize⟩

theorem oneRecord_startWrite (v : Byte) (cont : Cont) :
    OneRecord (writeRec a [v] region ch (a - a % 2)) (startWrite a [v] region ch cont s) :=
  ⟨rfl, rfl, hr, hch, ha, Nat.one_pos, congrArg (List.map _) (pairs_one a), hsize⟩

/-- A write of one byte that is written (R295). -/
theorem goes_write_ok {tx : List WriteAnswer} (htx : s.txFeed = .ok :: tx) (v : Byte) :
    Goes 4 (startWrite a [v] region ch .host s)
      (opEnded tx s.rxFeed 0 [.wrote (writeWire a [v] region ch)] [.regWrite .ok] s) := by
  rw [writeWire_one]
  exact ((oneRecord_startWrite hr hch ha hsize v .host).goes_written htx).trans (goes_finish rfl rfl)

/-- A write of one byte that errs (R295, R359). -/
theorem goes_write_tErr {k : Nat} {tx : List WriteAnswer} (htx : s.txFeed = .tErr k :: tx) (v : Byte) :
    Goes 4 (startWrite a [v] region ch .host s)
      (opEnded tx s.rxFeed 1 [.writeFailed ((writeWire a [v] region ch).take k)] [.regWrite .transportError] s) := by
  rw [writeWire_one]
  exact ((oneRecord_startWrite hr hch ha hsize v .host).goes_failed htx).trans (goes_finish rfl rfl)
end

/-- A read of one byte at the start of its harvest (R290). -/
def reading (a : Nat) (region : Half) (ch : Nat) (cont : Cont) (tx : List WriteAnswer) (s : State) : State :=
  { s with
    ctl := .reg, txFeed := tx, trace := s.trace ++ [.wrote (readWire a 1 region ch)] ++ [.delayed Lit.regRespDelayMs]
    txn := { Txn.none with
      phase := .harvest, addr := a, cnt := 1, region := region, ch := ch, cont := cont
      recs := [readRec region ch (a - a % 2)], put := 1, out := [0], got := [false] } }

section
variable (a : Nat) (region : Half) (ch : Nat) (cont : Cont) (tx : List WriteAnswer) (s : State)

theorem harvestStart_reading : HarvestStart (reading a region ch cont tx s) :=
  ⟨rfl, rfl, Nat.one_pos, rfl, rfl, rfl, rfl, rfl⟩

theorem trace_afterReads (bss : List (List Byte)) (rest : List ReadAnswer) :
    s.trace ++ (.wrote (readWire a 1 region ch) :: harvestEvents bss) =
      (afterReads bss rest (reading a region ch cont tx s)).trace := by
  simp [afterReads, reading, harvestEvents, Lit.regRespDelayMs, Lit.rxBufBytes]
end

section
variable {a ch : Nat} {region : Half} {s : State} {tx : List WriteAnswer} (hr : regionLegal region = true)
  (hch : channelLegal ch = true) (ha : a < 4096) (hsize : 8 ≤ s.cfg.txBatchBytes) (htx : s.txFeed = .ok :: tx)
  (cont : Cont) {bss : List (List Byte)} {rx : List ReadAnswer}
include hr hch ha hsize htx

theorem goes_reading : Goes 4 (startRead a 1 region ch cont s) (reading a region ch cont tx s) := by
  rw [reading, readWire_one]
  exact ((oneRecord_startRead hr hch ha hsize cont).goes_written htx).trans (goes_delay rfl rfl)

/-- A read of one byte whose harvest ends (R288, R289). -/
theorem goes_read_end (hrx : s.rxFeed = bss.map .bytes ++ rx) (hends : harvestEnds s.cfg a 1 ch bss) :
    ∃ k ≤ readsCost bss + 5, Goes k (startRead a 1 region ch cont s)
      (finishTxn (if allGot (harvested s.cfg.frameOrder a 1 ch bss) then .ok else .incomplete)
        (afterReads bss rx (reading a region ch cont tx s))) := by
  obtain ⟨k, hk, hread⟩ := (harvestStart_reading a region ch cont tx s).goes_end bss hrx hends
  exact ⟨4 + k, by omega, (goes_reading hr hch ha hsize htx cont).trans hread⟩

/-- A read of one byte that errs in its harvest (R288, R359). -/
theorem goes_read_tErr (hrx : s.rxFeed = bss.map .bytes ++ .tErr :: rx) (hlen : bss.length < s.cfg.harvestReads)
    (hopen : harvestOpen s.cfg.frameOrder a 1 ch bss) :
    ∃ k ≤ readsCost bss + 5, Goes k (startRead a 1 region ch cont s)
      (finishTxn .transportError (tookAnswer .tErr rx
        (afterReads bss (.tErr :: rx) (reading a region ch cont tx s)))) := by
  obtain ⟨k, hk, hread⟩ := (harvestStart_reading a region ch cont tx s).goes_tErr bss hrx hlen hopen
  exact ⟨4 + k, by omega, (goes_reading hr hch ha hsize htx cont).trans hread⟩
end

/-! ### The read of `reg.clrbits8` -/

theorem readOutput_tErr_length (t : Txn) (draw : Nat) : (readOutput .transportError t draw).length = t.cnt := by
  simp [readOutput]

section
variable {s : State} {a : Nat} {m : Byte} {region : Half} (hcont : s.txn.cont = .clrBits a m region)
include hcont

/-- A read that is not Ok ends `reg.clrbits8` (R152). -/
theorem finishPhase_clrBits_failed (hres : s.txn.result ≠ .ok) :
    finishPhase s = deliver (txnReply s.txn s.draws) (dropTxn s) := by
  simp only [finishPhase, hcont, hres, if_false]

/-- After an Ok read the byte is written back with the bits of `m` cleared (R152). -/
theorem finishPhase_clrBits_ok (hres : s.txn.result = .ok) :
    finishPhase s = startWrite a [firstByte s.txn &&& ~~~m] region s.cfg.regCh .host
      (deliver (txnReply s.txn s.draws) (dropTxn s)) := by
  simp only [finishPhase, hcont, hres, if_true]
end

section
variable {a : Nat} {region : Half} {ch : Nat} {s : State} (m : Byte)

/-- A read that fails its operand checks with `r` (R281). -/
theorem goes_clrBits_refused {r : RegStatus} (hr : r = .badOperand ∨ r = .rangeError)
    (hcheck : checkOperands (startRead a 1 region ch (.clrBits a m region) s) =
      finishTxn r (startRead a 1 region ch (.clrBits a m region) s)) :
    Goes 2 (startRead a 1 region ch (.clrBits a m region) s)
      (opEnded s.txFeed s.rxFeed 0 [] [.regRead r []] s) := by
  have hend := goes_finish (s := finishTxn r (startRead a 1 region ch (.clrBits a m region) s)) rfl rfl
  simp only [opEnded, List.append_nil, Nat.add_zero]
  rcases hr with rfl | rfl <;> rw [finishPhase_clrBits_failed rfl (by simp [finishTxn])] at hend <;>
    exact (goes_check rfl rfl hcheck).trans hend

theorem goes_clrBits_badOperand (hr : regionLegal region = false) :
    Goes 2 (startRead a 1 region ch (.clrBits a m region) s)
      (opEnded s.txFeed s.rxFeed 0 [] [.regRead .badOperand []] s) :=
  goes_clrBits_refused m (.inl rfl) (by simp [checkOperands, startRead, startTxn, hr])

variable (hr : regionLegal region = true) (hch : channelLegal ch = true)
include hr hch

theorem goes_clrBits_rangeError (ha : 4096 ≤ a) :
    Goes 2 (startRead a 1 region ch (.clrBits a m region) s)
      (opEnded s.txFeed s.rxFeed 0 [] [.regRead .rangeError []] s) := by
  have hrange : Lit.regSpaceBytes < a + 1 := Nat.lt_succ_of_le ha
  exact goes_clrBits_refused m (.inr rfl) (by simp [checkOperands, startRead, startTxn, hr, hch, hrange])

variable (ha : a < 4096) (hsize : 8 ≤ s.cfg.txBatchBytes)
include ha hsize

/-- The write of the read's record errs (R284, R359). -/
theorem goes_clrBits_writeFailed {k : Nat} {tx : List WriteAnswer} (htx : s.txFeed = .tErr k :: tx) :
    ∃ out : List Byte, out.length = 1 ∧
      Goes 4 (startRead a 1 region ch (.clrBits a m region) s)
        (opEnded tx s.rxFeed 1 [.writeFailed ((readWire a 1 region ch).take k)] [.regRead .transportError out]
          s) := by
  have hgo := (oneRecord_startRead hr hch ha hsize (.clrBits a m region)).goes_failed htx
  have hend := hgo.trans (goes_finish rfl rfl)
  rw [finishPhase_clrBits_failed rfl (by simp [finishTxn])] at hend
  rw [readWire_one]
  exact ⟨_, readOutput_tErr_length _ _, hend⟩

variable {tx : List WriteAnswer} (htx : s.txFeed = .ok :: tx) {bss : List (List Byte)} {rx : List ReadAnswer}
include htx

/-- A read of the harvest errs (R288, R359). -/
theorem goes_clrBits_readFailed (hrx : s.rxFeed = bss.map .bytes ++ .tErr :: rx)
    (hlen : bss.length < s.cfg.harvestReads) (hopen : harvestOpen s.cfg.frameOrder a 1 ch bss) :
    ∃ out : List Byte, out.length = 1 ∧ ∃ k ≤ readsCost bss + 6,
      Goes k (startRead a 1 region ch (.clrBits a m region) s)
        (opEnded tx rx 1 (.wrote (readWire a 1 region ch) :: harvestEvents bss ++ [.didRead .tErr])
          [.regRead .transportError out] s) := by
  let u := afterReads bss (.tErr :: rx) (reading a region ch (.clrBits a m region) tx s)
  obtain ⟨k, hk, hread⟩ := goes_read_tErr hr hch ha hsize htx (.clrBits a m region) hrx hlen hopen
  have hend := hread.trans (goes_finish rfl rfl)
  rw [finishPhase_clrBits_failed rfl (by simp [finishTxn])] at hend
  refine ⟨readOutput .transportError u.txn u.draws, readOutput_tErr_length _ _, k + 1, by omega, ?_⟩
  rw [opEnded, ← List.append_assoc, trace_afterReads a region ch (.clrBits a m region) tx s bss (.tErr :: rx)]
  exact hend

variable (hrx : s.rxFeed = bss.map .bytes ++ rx) (hends : harvestEnds s.cfg a 1 ch bss)
include hrx hends

/-- The harvest ends with the byte unmatched (R289). -/
theorem goes_clrBits_incomplete (hgot : allGot (harvested s.cfg.frameOrder a 1 ch bss) = false) :
    ∃ k ≤ readsCost bss + 6, Goes k (startRead a 1 region ch (.clrBits a m region) s)
      (opEnded tx rx 0 (.wrote (readWire a 1 region ch) :: harvestEvents bss)
        [.regRead .incomplete (harvested s.cfg.frameOrder a 1 ch bss).out] s) := by
  obtain ⟨k, hk, hread⟩ := goes_read_end hr hch ha hsize htx (.clrBits a m region) hrx hends
  rw [hgot] at hread
  have hend := hread.trans (goes_finish rfl rfl)
  rw [finishPhase_clrBits_failed rfl (by simp [finishTxn])] at hend
  refine ⟨k + 1, by omega, ?_⟩
  rw [opEnded, trace_afterReads a region ch (.clrBits a m region) tx s bss rx]
  exact hend

/-- The harvest ends with the byte matched: it is returned, and the write begins (R289, R152). -/
theorem goes_clrBits_matched (hgot : allGot (harvested s.cfg.frameOrder a 1 ch bss) = true) :
    let u := harvested s.cfg.frameOrder a 1 ch bss
    ∃ k ≤ readsCost bss + 6, Goes k (startRead a 1 region ch (.clrBits a m region) s)
      (startWrite a [u.out.headD 0 &&& ~~~m] region s.cfg.regCh .host
        (opEnded tx rx 0 (.wrote (readWire a 1 region ch) :: harvestEvents bss) [.regRead .ok u.out] s)) := by
  obtain ⟨k, hk, hread⟩ := goes_read_end hr hch ha hsize htx (.clrBits a m region) hrx hends
  rw [hgot] at hread
  have hend := hread.trans (goes_finish rfl rfl)
  rw [finishPhase_clrBits_ok rfl (by simp [finishTxn])] at hend
  refine ⟨k + 1, by omega, ?_⟩
  rw [opEnded, trace_afterReads a region ch (.clrBits a m region) tx s bss rx]
  exact hend
end

theorem channelLegal_regCh {p : Params} (h : p.wf) : channelLegal p.regCh = true := by
  obtain ⟨-, h1, h3, -⟩ := h
  simp [channelLegal, h1, h3]

/-- `reg.clrbits8` leads to where its dispatches lead, if its fuel covers them (R152). -/
theorem exec_regClrbits8_of_goes {a : Nat} {m : Byte} {region : Half} {s t : State} {k : Nat}
    (h : Goes k (startRead a 1 region s.cfg.regCh (.clrBits a m region) s) t) (hidle : t.ctl = .idle)
    (hk : k ≤ dispatchBound (startRead a 1 region s.cfg.regCh (.clrBits a m region) s)) :
    exec (.regClrbits8 a m region) s = .next t := congrArg Host.Outcome.next (runOp_of_goes h hidle hk)

/-- Settles O54: the read goes to its end, and after an Ok read the write does. -/
theorem regClrbitsResult : Obligations.RegClrbitsResult := by
  intro a m region s hwf
  have hch := channelLegal_regCh hwf
  obtain ⟨-, -, -, -, hsize, -⟩ := hwf
  have fuel (bss : List (List Byte)) (rest : List ReadAnswer) (h : s.rxFeed = bss.map ReadAnswer.bytes ++ rest) :
      readsCost bss + 64 ≤ dispatchBound (startRead a 1 region s.cfg.regCh (.clrBits a m region) s) :=
    readsCost_le_dispatchBound (s := startRead a 1 region s.cfg.regCh (.clrBits a m region) s) h
  have hfuel0 := fuel [] s.rxFeed rfl
  refine ⟨fun hr => ?_, fun hr ha => ?_, fun hr ha => ⟨fun k tx htx => ?_, fun tx bss rx htx hrx hlen hopen => ?_,
    fun tx bss rx htx hrx hends => ?_⟩⟩
  · exact exec_regClrbits8_of_goes (goes_clrBits_badOperand m hr) rfl (by omega)
  · exact exec_regClrbits8_of_goes (goes_clrBits_rangeError m hr hch ha) rfl (by omega)
  · obtain ⟨out, hout, hgo⟩ := goes_clrBits_writeFailed m hr hch ha hsize htx
    exact ⟨out, hout, exec_regClrbits8_of_goes hgo rfl (by omega)⟩
  · obtain ⟨out, hout, k, hk, hgo⟩ := goes_clrBits_readFailed m hr hch ha hsize htx hrx hlen hopen
    have hfuel := fuel bss _ hrx
    exact ⟨out, hout, exec_regClrbits8_of_goes hgo rfl (by omega)⟩
  · intro u v wr events
    have hfuel := fuel bss _ hrx
    have hv : u.out = [v] := by
      obtain ⟨b, hb⟩ := List.length_eq_one_iff.mp (harvested_length s.cfg.frameOrder a 1 s.cfg.regCh bss)
      simp only [u, v, hb, List.headD_cons]
    let s1 := opEnded tx rx 0 events [.regRead .ok u.out] s
    rw [← hv]
    refine ⟨fun hgot => ?_, fun tx2 hgot htx2 => ?_, fun k2 tx2 hgot htx2 => ?_⟩
    · obtain ⟨k, hk, hgo⟩ := goes_clrBits_incomplete m hr hch ha hsize htx hrx hends hgot
      exact exec_regClrbits8_of_goes hgo rfl (by omega)
    · obtain ⟨k, hk, hgo⟩ := goes_clrBits_matched m hr hch ha hsize htx hrx hends hgot
      have hwrite := goes_write_ok (s := s1) hr hch ha hsize htx2 (v &&& ~~~m)
      rw [opEnded_opEnded] at hwrite
      exact exec_regClrbits8_of_goes (hgo.trans hwrite) rfl (by omega)
    · obtain ⟨k, hk, hgo⟩ := goes_clrBits_matched m hr hch ha hsize htx hrx hends hgot
      have hwrite := goes_write_tErr (s := s1) hr hch ha hsize htx2 (v &&& ~~~m)
      rw [opEnded_opEnded] at hwrite
      exact exec_regClrbits8_of_goes (hgo.trans hwrite) rfl (by omega)

end Sys2Proof.Machine
end

section
/-! SUPPORT. The proofs of the family of spec/40_deinterleaver.md: the units and the host operations of the receiver,
one dispatch of RX_DECODE as a step of the machine, the outcomes, and a stream of groups delivered TLP by TLP. -/

namespace Sys2Proof.Machine

/-! ## One dispatch of RX_DECODE -/

/-! ### The due unit and the step rule -/

/-- Inside an operation, with no Fatal session and a legal cursor, a step goes on with the operation. -/
theorem step_of_busy {s : State} (hh : hasHalted s = false) (hcur : cursorOk s.rx = true) (hc : s.ctl ≠ .idle) :
    step s = resumeOp s := by
  simp [step, hh, hcur, hc]

theorem resumeOp_act {s : State} {t : Tick} (h : due s = .act t) : resumeOp s = .next t.state := by
  simp only [resumeOp, h]

theorem resumeOp_unit {s u : State} {p : Packet} {i : Instr} (h : due s = .unit p u) (hd : decode p = .ok i) :
    resumeOp s = exec i u := by
  simp only [resumeOp, h, runUnit, hd]

theorem resumeOp_reject {s u : State} {p : Packet} {e : Reject} (h : due s = .unit p u) (hd : decode p = .error e) :
    resumeOp s = .next (tick s).state := by
  simp only [resumeOp, h, runUnit, hd]

/-- The class nibble of a slot is decoded to the row of that class (R102, R103). -/
theorem exec_decodeSlot (c : Nibble) (s : State) :
    exec (decodeSlot c) s = withCursor s (consumeSlot c s).state := by
  obtain ⟨i, hi⟩ : ∃ i, decodeSlot c = i := ⟨_, rfl⟩
  have henc := decodeSlot_encodes c
  have hrow : ∃ d : Nibble, encode i = some ⟨.slot, [d.toNat]⟩ ∧
      ∀ s, exec i s = withCursor s (consumeSlot d s).state := by
    unfold decodeSlot at hi
    split_ifs at hi <;> subst hi <;> exact ⟨_, rfl, fun _ => rfl⟩
  obtain ⟨d, hd, hexec⟩ := hrow
  have hcd : c = d := by
    rw [EncodesTo, hi, hd] at henc
    simpa [BitVec.toNat_inj, eq_comm] using henc
  rw [hi, hexec, hcd]

/-- Where a status word is expected, a word runs as that word taken; one that spells no unit is left to the step rule
(R104, R135, R162). -/
theorem decodeRxStatus_cases (v : Word) :
    (∃ i, decodeRxStatus v = .ok i ∧ ∀ s, exec i s = .next (takeStatus v s)) ∨
      ∃ e, decodeRxStatus v = .error e := by
  unfold decodeRxStatus
  split_ifs with hf hm
  · exact .inl ⟨_, rfl, fun s => by rw [hf]; rfl⟩
  · refine .inl ⟨_, rfl, fun s => ?_⟩
    have hv : Lit.statusMarker ++ v.extractLsb' 0 28 = v := append_of_extract (n := 4) (k := 28) hm
    show Host.Outcome.next (takeStatus (Lit.statusMarker ++ v.extractLsb' 0 28) s) = _
    rw [hv]
  · exact .inr ⟨_, rfl⟩

theorem dueSlot_unit {s : State} (hslot : s.rx.slot ≠ 7) : dueSlot s = .unit ⟨.slot, [(slotNibble s.rx).toNat]⟩ s :=
  if_neg hslot

theorem due_send {s : State} {w : Word} {rest : List Word} (hc : s.ctl = .send (w :: rest)) :
    due s = .unit ⟨.txTlp, [(txTlpRec w rest.isEmpty).toNat]⟩ s := by
  simp only [due, hc]

section
variable {s : State} {b : Bool} (hc : s.ctl = .rx b)
include hc

theorem tick_rx : tick s = rxTick s := tick_of_inRx (by rw [hc]; rfl)

theorem due_rx : due s = dueRx s := by simp only [due, hc]

theorem resumeOp_awaiting (hst : s.rx.st = .awaitingStatus) : resumeOp s = .next (stepAwait s).state := by
  have htick : tick s = stepAwait s := by rw [tick_rx hc, rxTick, hst]
  have hdue : due s = dueStatus s := by rw [due_rx hc, dueRx, hst]
  unfold stepAwait at htick ⊢
  unfold dueStatus at hdue
  cases e : fetchWord s <;> simp only [e] at htick hdue ⊢
  case word q t =>
    rcases decodeRxStatus_cases (frameValue t.cfg.frameOrder q) with ⟨i, hd, hexec⟩ | ⟨r, hd⟩ <;>
      rw [← decode_rxStatus] at hd
    · rw [resumeOp_unit hdue hd, hexec]
      rfl
    · rw [resumeOp_reject hdue hd, htick]
  case ended t => exact resumeOp_act hdue
  case waits t => exact resumeOp_act hdue

theorem resumeOp_slot (hcur : cursorOk s.rx = true) (hst : s.rx.st = .inData ∨ s.rx.st = .inRemainder) :
    resumeOp s = .next (consumeSlot (slotNibble s.rx) s).state := by
  have hdue : due s = dueSlot s := by
    rcases hst with hst | hst <;> rw [due_rx hc, dueRx, hst]
  unfold dueSlot at hdue
  split at hdue <;> rename_i hslot
  · rw [resumeOp_act hdue, consumeSlot, if_pos hslot]
  · rw [resumeOp_unit hdue (decode_slot _), exec_decodeSlot, withCursor_of_cursorOk hcur]

/-- Inside RX_DECODE, decoding and running the due unit is one turn of its loop (R160). -/
theorem resumeOp_rx (hcur : cursorOk s.rx = true) : resumeOp s = .next (rxTick s).state := by
  unfold rxTick
  split <;> rename_i hst
  · exact resumeOp_awaiting hc hst
  · exact resumeOp_slot hc hcur (.inl hst)
  · exact resumeOp_slot hc hcur (.inr hst)
  · refine resumeOp_act ?_
    rw [due_rx hc, dueRx, hst]

theorem step_rx (hh : hasHalted s = false) (hcur : cursorOk s.rx = true) : step s = .next (rxTick s).state := by
  rw [step_of_busy hh hcur (by rw [hc]; nofun), resumeOp_rx hc hcur]
end

/-! ### The other operations -/

/-- A legal record decodes to the record emitted, with a region and a channel that R281 allows (R126). -/
theorem decodeRegReq_of_legal {r : Rec} (h : recLegal r = true) :
    ∃ i, decodeRegReq r = .ok i ∧ ∀ s, exec i s = .next (issueRecord r s) := by
  unfold recLegal at h
  cases hd : decodeRegReq r with
  | error e => simp [hd] at h
  | ok i =>
    simp only [hd] at h
    have henc := decodeRegReq_encodes r i hd
    obtain ⟨region, ch, r', hexec, hr', hlegal⟩ : ∃ region ch, ∃ r' : Rec,
        (∀ s, exec i s = emitRegReq region ch r' s) ∧ encode i = some ⟨.regReq, [r'.toNat]⟩ ∧
          (wellFormed i = true → regionBitsOk region ∧ channelBitsOk ch) := by
      unfold decodeRegReq at hd
      split_ifs at hd <;> cases hd
      · exact ⟨_, _, _, fun _ => rfl, rfl, fun hw => by simpa [wellFormed] using hw⟩
      · refine ⟨_, _, _, fun _ => rfl, rfl, fun hw => ?_⟩
        simp only [wellFormed, Bool.and_eq_true, decide_eq_true_eq] at hw
        exact hw.1.1.1
    have hrr : r' = r := by
      rw [EncodesTo, hr'] at henc
      simpa [BitVec.toNat_inj] using henc
    exact ⟨i, rfl, fun s => by rw [hexec, emitRegReq, if_pos (hlegal h), hrr]⟩

theorem exec_decodeRegResp (q : Word) (s : State) :
    exec (decodeRegResp q) s = .next (takeResponse (respAddr q) (byteOf q 2) (byteOf q 3) s) := rfl

theorem decodeTxTlp_exec (w : Word) (last : Bool) :
    ∃ i, decodeTxTlp (txTlpRec w last) = .ok i ∧ ∀ s, exec i s = .next (sendWord w last s) := by
  obtain ⟨hword, hlast⟩ := decodeTxTlp_txTlpRec w
  cases last
  · exact ⟨_, hword, fun _ => rfl⟩
  · exact ⟨_, hlast, fun _ => rfl⟩

/-- Inside a register transaction, decoding and running what is due is one dispatch by its phase (R45, R284, R285). -/
theorem resumeOp_reg {s : State} (hc : s.ctl = .reg) (hrecs : s.txn.recs.all recLegal = true) :
    resumeOp s = .next (regTick s).state := by
  have hdue : due s = dueReg s := by simp only [due, hc]
  unfold dueReg at hdue
  unfold regTick
  cases hp : s.txn.phase <;> simp only [hp] at hdue ⊢
  case idle => exact resumeOp_act hdue
  case wait => exact resumeOp_act hdue
  case done => exact resumeOp_act hdue
  case issue =>
    cases hr : s.txn.recs[s.txn.put]? with
    | none =>
      simp only [hr] at hdue
      exact resumeOp_act hdue
    | some r =>
      simp only [hr] at hdue
      obtain ⟨i, hd, hexec⟩ := decodeRegReq_of_legal (List.all_eq_true.mp hrecs r (List.mem_of_getElem? hr))
      rw [resumeOp_unit hdue ((decode_regReq r).trans hd), hexec]
      rfl
  case harvest =>
    cases hq : s.txn.pend with
    | nil =>
      simp only [hq] at hdue
      exact resumeOp_act hdue
    | cons q rest =>
      simp only [hq] at hdue
      rw [resumeOp_unit hdue (decode_regResp q), exec_decodeRegResp, harvestTick, hq]
      rfl

/-- Settles O7: by the operation in progress, each with its own units. -/
theorem stepAgreesWithRules : Obligations.StepAgreesWithRules := by
  intro s hh hne hinv
  have hok := (machineOk_iff s).mpr hinv
  rw [step_of_busy hh hok.cursorOk hne]
  cases hc : s.ctl with
  | idle => exact absurd hc hne
  | rx b => rw [resumeOp_rx hc hok.cursorOk, tick_rx hc]
  | reg => simpa only [tick, hc] using resumeOp_reg hc hok.txn.recs
  | send ws =>
    cases ws with
    | nil =>
      simp only [tick, hc]
      exact resumeOp_act (by simp only [due, hc])
    | cons w rest =>
      obtain ⟨i, hd, hexec⟩ := decodeTxTlp_exec w rest.isEmpty
      rw [resumeOp_unit (due_send hc) ((decode_txTlp _).trans hd), hexec]
      simp only [tick, hc]
      rfl

/-- Settles O6: the unit is the one due, so the step runs what it decodes to. -/
theorem stepRunsDueUnit : Obligations.StepRunsDueUnit := by
  intro s hh hcur
  have hstep (hne : s.ctl ≠ .idle) {p : Packet} {u : State} {i : Instr} (hdue : due s = .unit p u)
      (hd : decode p = .ok i) : step s = exec i u := (step_of_busy hh hcur hne).trans (resumeOp_unit hdue hd)
  refine ⟨fun b i hc hst hbuf hd => ?_, fun b i hc hst hslot hd => ?_, fun q rest i hc hp hq hd => ?_,
    fun r i hc hp hr hd => ?_, fun w rest i hc hd => ?_⟩
  · refine hstep (by rw [hc]; nofun) ?_ hd
    rw [due_rx hc, dueRx, hst]
    simp only [dueStatus, fetchWord_buffered hbuf]
    rfl
  · have hnib : s.rx.sf.toNat % 16 = (slotNibble s.rx).toNat := by
      simp [slotNibble, nib]
    rw [hnib] at hd
    refine hstep (by rw [hc]; nofun) ?_ hd
    rw [due_rx hc, dueRx]
    rcases hst with hst | hst <;> simp only [hst, dueSlot_unit hslot]
  · exact hstep (by rw [hc]; nofun) (by simp only [due, hc, dueReg, hp, hq]) hd
  · exact hstep (by rw [hc]; nofun) (by simp only [due, hc, dueReg, hp, hr]) hd
  · exact hstep (by rw [hc]; nofun) (due_send hc) hd

/-! ## The receiver's host operations and units -/

/-! ### Discarding and resetting -/

/-- Settles O15: both operations move the cursor to the end of the buffer and return Ok. -/
theorem rxDiscardResult : Obligations.RxDiscardResult := fun _ => ⟨rfl, rfl⟩

theorem resetReceiver_idem (r : Receiver) : resetReceiver (resetReceiver r) = resetReceiver r := rfl

/-- Settles O16: the reset receiver is its own reset, so the second run only returns its Ok. -/
theorem rxResetResult : Obligations.RxResetResult := by
  intro s t
  have hagain : exec .rxReset t = .next (deliver .ok (t.setRx (resetReceiver t.rx))) := rfl
  have hsame : resetReceiver t.rx = t.rx := resetReceiver_idem s.rx
  refine ⟨rfl, ?_⟩
  rw [hagain, hsame]
  rfl

/-! ### Status words -/

theorem markOf_eq_statusMarker_iff (v : Word) : markOf v = Lit.statusMarker ↔ v.toNat / 2 ^ 28 = 0xE := by
  have hlt := v.isLt
  rw [markOf, ← BitVec.toNat_inj, BitVec.extractLsb'_toNat, Nat.shiftRight_eq_div_pow, Lit.statusMarker]
  show v.toNat / 2 ^ 28 % 2 ^ 4 = 0xE ↔ _
  omega

theorem statusMarker_append (slots : BitVec 28) :
    (Lit.statusMarker ++ slots : Word) = BitVec.ofNat 32 (0xE * 2 ^ 28 + slots.toNat) := by
  have hlt := slots.isLt
  apply BitVec.eq_of_toNat_eq
  rw [BitVec.toNat_append, ← Nat.shiftLeft_add_eq_or_of_lt hlt, BitVec.toNat_ofNat, Nat.shiftLeft_eq, Lit.statusMarker]
  show 0xE * 2 ^ 28 + slots.toNat = _
  omega

theorem takeStatus_filler (s : State) : takeStatus Lit.fillerWord s = s := if_pos rfl

theorem takeStatus_status {v : Word} (hm : markOf v = Lit.statusMarker) (s : State) :
    takeStatus v s = s.setRx { s.rx with sf := v, slot := 0, st := .inData } := by
  have hf : v ≠ Lit.fillerWord := by
    rintro rfl
    exact absurd hm (by decide)
  rw [takeStatus, if_neg hf, if_pos hm]

theorem takeStatus_illegal {v : Word} (hf : v ≠ Lit.fillerWord) (hm : markOf v ≠ Lit.statusMarker) (s : State) :
    takeStatus v s = emitRx .outOfSync (s.setRx (accReset s.rx)) := by
  rw [takeStatus, if_neg hf, if_neg hm]

/-- Settles O17: a word with the marker is loaded whole, the filler word changes nothing. -/
theorem statusAndFillerUnits : Obligations.StatusAndFillerUnits := by
  refine fun s => ⟨fun slots => ?_, congrArg Host.Outcome.next (takeStatus_filler s)⟩
  have hm : markOf (Lit.statusMarker ++ slots : Word) = Lit.statusMarker := BitVec.extractLsb'_append_eq_left
  show Host.Outcome.next (takeStatus (Lit.statusMarker ++ slots) s) = _
  rw [takeStatus_status hm, statusMarker_append]
  rfl

/-! ### The leader word of a TLP -/

theorem fmtOf_toNat (w : Word) : (fmtOf w).toNat = w.toNat / 2 ^ 29 := by
  have hlt := w.isLt
  rw [fmtOf, BitVec.extractLsb'_toNat, Nat.shiftRight_eq_div_pow]
  omega

theorem tdOf_eq (w : Word) : tdOf w = w.toNat / 2 ^ 15 % 2 := by
  rw [tdOf, BitVec.extractLsb'_toNat, Nat.shiftRight_eq_div_pow]

theorem paylen_eq (w : Word) : paylen w = if w.toNat % 1024 = 0 then 1024 else w.toNat % 1024 := by
  have hlen : (w.extractLsb' 0 10).toNat = w.toNat % 1024 := by
    rw [BitVec.extractLsb'_toNat, Nat.shiftRight_zero]
  have hzero : w.extractLsb' 0 10 = 0 ↔ w.toNat % 1024 = 0 := by
    rw [← BitVec.toNat_inj, hlen]
    rfl
  simp only [paylen, hzero, hlen]

theorem hdrLen_prefix {w : Word} (h : w.toNat / 2 ^ 29 = 4) : hdrLen w = .prefixWord := by
  have hf : fmtOf w = 0b100 := BitVec.eq_of_toNat_eq ((fmtOf_toNat w).trans h)
  simp only [hdrLen, hf, if_true]

theorem hdrLen_invalid {w : Word} (h : 4 < w.toNat / 2 ^ 29) : hdrLen w = .invalid := by
  rw [← fmtOf_toNat] at h
  have hf : ∀ f : BitVec 3, 4 < f.toNat → f ≠ 0b100 ∧ f.getLsbD 2 = true := by decide
  obtain ⟨hne, htop⟩ := hf _ h
  simp only [hdrLen, if_neg hne, htop, if_true]

/-- The total of a header by the bits of its word: header words by bit 0 of Fmt, payload by bit 1, digest (R221). -/
theorem hdrLen_header {w : Word} (h : w.toNat / 2 ^ 29 < 4) : ∃ hw pay d, hdrLen w = .header hw pay d
    ((if w.toNat / 2 ^ 29 % 2 = 1 then 4 else 3) +
      (if w.toNat / 2 ^ 29 = 2 ∨ w.toNat / 2 ^ 29 = 3 then (if w.toNat % 1024 = 0 then 1024 else w.toNat % 1024)
        else 0) + w.toNat / 2 ^ 15 % 2) := by
  simp only [← paylen_eq, ← tdOf_eq, ← fmtOf_toNat] at h ⊢
  have hf : ∀ f : BitVec 3, f.toNat < 4 → f ≠ 0b100 ∧ f.getLsbD 2 = false ∧
      (f.getLsbD 0 = true ↔ f.toNat % 2 = 1) ∧ (f.getLsbD 1 = true ↔ f.toNat = 2 ∨ f.toNat = 3) := by decide
  obtain ⟨hne, htop, h0, h1⟩ := hf _ h
  refine ⟨hdrWordsOfFmt (fmtOf w), payOf (fmtOf w) w, tdOf w, ?_⟩
  simp only [hdrLen, if_neg hne, htop, Bool.false_eq_true, if_false, hdrWordsOfFmt, payOf, h0, h1]
  split <;> rfl

theorem trackExpected_fixed {r : Receiver} (h : r.exp ≠ .unknown) (w : Word) : trackExpected w r = r := if_neg h

section
variable {w : Word} {r : Receiver} (hu : r.exp = .unknown)
include hu

theorem trackExpected_prefix (h : hdrLen w = .prefixWord) : trackExpected w r = { r with pfx := r.pfx + 1 } := by
  rw [trackExpected, if_pos hu, updateExpected, h]

theorem trackExpected_header {hw : HdrWords} {pay d t : Nat} (h : hdrLen w = .header hw pay d t) :
    trackExpected w r = { r with exp := .known (r.pfx + t) } := by
  rw [trackExpected, if_pos hu, updateExpected, h]

theorem trackExpected_invalid (h : hdrLen w = .invalid) : trackExpected w r = { r with exp := .invalid } := by
  rw [trackExpected, if_pos hu, updateExpected, h]
end

theorem append_full {cap : Nat} {r : Receiver} (h : cap ≤ r.n) (w : Word) :
    append cap w r = { r with ovf := true } := if_neg (by omega)

theorem append_room {cap : Nat} {r : Receiver} (h : r.n < cap) (w : Word) :
    append cap w r = trackExpected w { r with acc := r.acc.set r.n w, n := r.n + 1 } := if_pos h

/-- Settles O21: the store and the count by the room left, the expected count by the Fmt of the word. -/
theorem appendRule : Obligations.AppendRule := by
  intro cap w r f pay total stored
  refine ⟨fun hfull => append_full hfull w, fun hlt hk => ?_, fun hlt hu hf => ?_, fun hlt hu hf => ?_,
    fun hlt hu hf => ?_⟩ <;> refine (append_room hlt w).trans ?_
  · exact trackExpected_fixed (r := stored) hk w
  · exact trackExpected_prefix (r := stored) hu (hdrLen_prefix hf)
  · obtain ⟨hw, pay', d, hlen⟩ := hdrLen_header hf
    exact trackExpected_header (r := stored) hu hlen
  · exact trackExpected_invalid (r := stored) hu (hdrLen_invalid hf)

/-- A leader word inside RX_DECODE tracks the expected count (R169; log entry 10). -/
theorem leaderFmt_rx {s : State} {b : Bool} (hc : s.ctl = .rx b) (w : Word) :
    leaderFmt w s = .next (s.setRx (trackExpected w s.rx)) := by
  simp only [leaderFmt, leader, hc]

/-- The bits of a leader word with this Fmt above the rest of it (R110, R111). -/
theorem fmt_append_bits (f : BitVec 3) (rest : BitVec 29) :
    (f ++ rest : Word).toNat / 2 ^ 29 = f.toNat ∧ (f ++ rest : Word).toNat % 1024 = rest.toNat % 1024 ∧
      (f ++ rest : Word).toNat / 2 ^ 15 % 2 = rest.toNat / 2 ^ 15 % 2 := by
  have hlt := rest.isLt
  rw [BitVec.toNat_append, ← Nat.shiftLeft_add_eq_or_of_lt hlt, Nat.shiftLeft_eq]
  omega

section
variable {s : State} {b : Bool} (hc : s.ctl = .rx b) (f : BitVec 3) (rest : BitVec 29)
include hc

/-- A header row inside RX_DECODE, with the expected count unknown (R169, R231-R234). -/
theorem leaderFmt_rx_header (hu : s.rx.exp = .unknown) (hf : f.toNat < 4) :
    leaderFmt (f ++ rest) s = .next { s with rx := { s.rx with exp := .known (s.rx.pfx +
      ((if f.toNat % 2 = 1 then 4 else 3) +
        (if f.toNat = 2 ∨ f.toNat = 3 then (if rest.toNat % 1024 = 0 then 1024 else rest.toNat % 1024) else 0) +
        rest.toNat / 2 ^ 15 % 2)) } } := by
  obtain ⟨hfmt, hlow, htd⟩ := fmt_append_bits f rest
  obtain ⟨hw, pay, d, hlen⟩ := hdrLen_header (w := f ++ rest) (by omega)
  rw [hfmt, hlow, htd] at hlen
  rw [leaderFmt_rx hc, trackExpected_header hu hlen]
  rfl

/-- The FMT_PREFIX row inside RX_DECODE (R235). -/
theorem leaderFmt_rx_prefix (hu : s.rx.exp = .unknown) (hf : f.toNat = 4) :
    leaderFmt (f ++ rest) s = .next { s with rx := { s.rx with pfx := s.rx.pfx + 1 } } := by
  rw [leaderFmt_rx hc, trackExpected_prefix hu (hdrLen_prefix ((fmt_append_bits f rest).1.trans hf))]
  rfl

/-- A reserved row inside RX_DECODE (R236). -/
theorem leaderFmt_rx_reserved (hu : s.rx.exp = .unknown) (hf : 4 < f.toNat) :
    leaderFmt (f ++ rest) s = .next { s with rx := { s.rx with exp := .invalid } } := by
  rw [leaderFmt_rx hc, trackExpected_invalid hu (hdrLen_invalid (hf.trans_eq (fmt_append_bits f rest).1.symm))]
  rfl

/-- Any row inside RX_DECODE once the expected count is fixed (R168). -/
theorem leaderFmt_rx_fixed (hk : s.rx.exp ≠ .unknown) : leaderFmt (f ++ rest) s = .next s := by
  rw [leaderFmt_rx hc, trackExpected_fixed hk]
  rfl
end

/-- Settles O32: row by row, by its Fmt. -/
theorem fmtRowsInReceiver : Obligations.FmtRowsInReceiver := by
  intro rest s b hc
  refine ⟨fun hu => ?_, fun hk => ?_⟩
  · have header {f : BitVec 3} (hf : f.toNat < 4) := leaderFmt_rx_header hc f rest hu hf
    have reserved {f : BitVec 3} (hf : 4 < f.toNat) := leaderFmt_rx_reserved hc f rest hu hf
    exact ⟨header (by decide), header (by decide), header (by decide), header (by decide),
      leaderFmt_rx_prefix hc _ rest hu (by decide), reserved (by decide), reserved (by decide), reserved (by decide)⟩
  · have fixed (f : BitVec 3) := leaderFmt_rx_fixed hc f rest hk
    exact ⟨fixed _, fixed _, fixed _, fixed _, fixed _, fixed _, fixed _, fixed _⟩

/-! ### Data slots -/

theorem isTlp_slotNibble (r : Receiver) : isTlp (slotNibble r) = decide (r.sf.toNat % 4 = 0) := by
  have hnib : ((slotNibble r).extractLsb' 0 2).toNat = r.sf.toNat % 4 := by
    rw [BitVec.extractLsb'_toNat, slotNibble, nib, BitVec.extractLsb'_toNat, Nat.shiftRight_zero, Nat.shiftRight_zero]
    omega
  rw [isTlp, decide_eq_decide, ← BitVec.toNat_inj, hnib]
  rfl

/-- NextDataState once a slot has been consumed: the class above the consumed one decides (R165, R167). -/
theorem nextDataState_advance (r : Receiver) :
    nextDataState (advance r) = if r.sf.toNat / 16 % 4 = 0 ∧ r.ovf = false then .inData else .inRemainder := by
  rw [nextDataState, isTlp_slotNibble, advance_sf, advance_ovf, BitVec.toNat_ushiftRight, Nat.shiftRight_eq_div_pow]
  simp only [Bool.and_eq_true, decide_eq_true_eq, Bool.not_eq_true', Nat.reducePow]

/-- The classes of the rows: TLP or not, last or not (R102, R103). -/
theorem tlpClasses (b3 : BitVec 1) : isTlp (b3 ++ 0b000#3) = true ∧ isLast (b3 ++ 0b000#3) = false ∧
    isTlp (b3 ++ 0b100#3) = true ∧ isLast (b3 ++ 0b100#3) = true := by
  revert b3
  decide

theorem nonTlpClasses (hi : BitVec 2) : (isTlp (hi ++ 0b01#2) = false ∧ isLast (hi ++ 0b01#2) = false) ∧
    (isTlp (hi ++ 0b10#2) = false ∧ isLast (hi ++ 0b10#2) = false) ∧
    isTlp (hi ++ 0b11#2) = false ∧ isLast (hi ++ 0b11#2) = false := by
  revert hi
  decide

theorem isTlp_of_isLast {c : Nibble} (h : isLast c = true) : isTlp c = true := by
  revert c
  decide

theorem slotAppend_tlp {c : Nibble} {r : Receiver} (hst : r.st = .inData) (hc : isTlp c = true) (cap : Nat) (q : Word) :
    slotAppend cap c q r = append cap q r := by
  simp [slotAppend, hst, hc]

theorem slotAppend_nonTlp {c : Nibble} (hc : isTlp c = false) (cap : Nat) (q : Word) (r : Receiver) :
    slotAppend cap c q r = r := by
  simp [slotAppend, hc]

theorem slotAppend_inRemainder {r : Receiver} (hst : r.st = .inRemainder) (cap : Nat) (c : Nibble) (q : Word) :
    slotAppend cap c q r = r := if_pos hst

theorem stateAfterSlot_last {c : Nibble} (hc : isLast c = true) (r : Receiver) :
    stateAfterSlot c r = .tlpComplete := if_pos hc

theorem stateAfterSlot_advance {c : Nibble} (hc : isLast c = false) (r : Receiver) :
    stateAfterSlot c (advance r) = if r.sf.toNat / 16 % 4 = 0 ∧ r.ovf = false then .inData else .inRemainder := by
  rw [stateAfterSlot, hc]
  exact nextDataState_advance r

theorem stateAfterSlot_append {c : Nibble} (hc : isLast c = false) (cap : Nat) (q : Word) (r : Receiver) :
    stateAfterSlot c (advance (append cap q r)) =
      if r.sf.toNat / 16 % 4 = 0 ∧ (append cap q r).ovf = false then .inData else .inRemainder := by
  rw [stateAfterSlot_advance hc, (append_frame cap q r).2.1]

/-! Append leaves the cursor, whatever it is (R168). -/

theorem updateExpected_withRd (w : Word) (r : Receiver) (k : Nat) :
    updateExpected w { r with rd := k } = { updateExpected w r with rd := k } := by
  unfold updateExpected
  cases hdrLen w <;> rfl

theorem trackExpected_withRd (w : Word) (r : Receiver) (k : Nat) :
    trackExpected w { r with rd := k } = { trackExpected w r with rd := k } := by
  unfold trackExpected
  split
  · exact updateExpected_withRd w r k
  · rfl

theorem append_withRd (cap : Nat) (w : Word) (r : Receiver) (k : Nat) :
    append cap w { r with rd := k } = { append cap w r with rd := k } := by
  unfold append
  split
  · exact trackExpected_withRd w { r with acc := r.acc.set r.n w, n := r.n + 1 } k
  · rfl

theorem consumeSlot_end {s : State} (h : s.rx.slot = 7) (c : Nibble) : consumeSlot c s = .go (endGroup s) := if_pos h

theorem consumeSlot_word {s t : State} {q : Word} (hslot : s.rx.slot ≠ 7) (e : fetchWord s = .word q t) (c : Nibble) :
    consumeSlot c s = .go (t.setRx (takeSlot t.cfg.accCap c q t.rx)) := by
  have hslot : s.rx.slot ≠ Lit.slotsPerGroup := hslot
  rw [consumeSlot, if_neg hslot, e]

section
variable {s : State} (hcur : cursorOk s.rx = true)
include hcur

/-- A slot's unit with its word in the buffer (R161, R164). -/
theorem withCursor_consumeSlot (hbuf : s.rx.rd ≠ s.rx.lim) (hslot : s.rx.slot < 7) (c : Nibble) :
    withCursor s (consumeSlot c s).state = .next (s.setRx (takeSlot s.cfg.accCap c (bufWord s.rx s.rx.rd)
      { s.rx with rd := s.rx.rd + 1 })) := by
  rw [withCursor_of_cursorOk hcur, consumeSlot_word (by omega) (fetchWord_buffered hbuf)]
  rfl

theorem withCursor_endGroup (hslot : s.rx.slot = 7) (c : Nibble) :
    withCursor s (consumeSlot c s).state = .next (endGroup s) := by
  rw [withCursor_of_cursorOk hcur, consumeSlot_end hslot]
  rfl
end

/-- A slot in which a word is appended (R164, R165). -/
theorem takeSlot_append {c : Nibble} {r : Receiver} (hst : r.st = .inData) (hc : isTlp c = true) (cap : Nat) (q : Word)
    (k : Nat) :
    takeSlot cap c q { r with rd := k } = { append cap q r with
      rd := k, sf := r.sf >>> 4, slot := r.slot + 1, st := stateAfterSlot c (advance (append cap q r)) } := by
  obtain ⟨-, hsf, hslot, -⟩ := append_frame cap q r
  simp only [takeSlot, slotAppend_tlp (r := { r with rd := k }) hst hc, append_withRd]
  simp only [advance, stateAfterSlot, nextDataState, slotNibble, hsf, hslot]

/-- A slot whose word is discarded (R164, R166, R165). -/
theorem takeSlot_discard {c : Nibble} {r : Receiver} {cap : Nat} {q : Word} (h : slotAppend cap c q r = r) :
    takeSlot cap c q r = { advance r with st := stateAfterSlot c (advance r) } := by
  rw [takeSlot, h]

/-- Settles O18: the slot's word is buffered, so the unit takes it; the class says whether the TLP ends. -/
theorem tlpSlotUnits : Obligations.TlpSlotUnits := by
  intro s b3 hcur hbuf hslot hst a after
  obtain ⟨hdata, hnot, hlast, hend⟩ := tlpClasses b3
  constructor
  · refine (withCursor_consumeSlot hcur hbuf hslot _).trans ?_
    rw [takeSlot_append hst hdata, stateAfterSlot_append hnot]
    rfl
  · refine (withCursor_consumeSlot hcur hbuf hslot _).trans ?_
    rw [takeSlot_append hst hlast, stateAfterSlot_last hend]
    rfl

/-- Settles O19: no word is appended, because of the class or of the state. -/
theorem discardedSlotUnits : Obligations.DiscardedSlotUnits := by
  intro s hcur hbuf hslot after goesOn
  let r : Receiver := { s.rx with rd := s.rx.rd + 1 }
  have hunit := withCursor_consumeSlot hcur hbuf hslot
  have discard {c : Nibble} (h : slotAppend s.cfg.accCap c (bufWord s.rx s.rx.rd) r = r) :
      withCursor s (consumeSlot c s).state =
        .next (s.setRx { advance r with st := stateAfterSlot c (advance r) }) := by
    rw [hunit, takeSlot_discard h]
  have keeps {c : Nibble} (h : slotAppend s.cfg.accCap c (bufWord s.rx s.rx.rd) r = r) (hc : isLast c = false) :
      withCursor s (consumeSlot c s).state = .next goesOn := by
    rw [discard h, stateAfterSlot_advance hc]
    rfl
  refine ⟨fun _ hi => ?_, fun hst b3 => ?_⟩
  · obtain ⟨⟨h01, hl01⟩, ⟨h10, hl10⟩, h11, hl11⟩ := nonTlpClasses hi
    exact ⟨keeps (slotAppend_nonTlp h01 _ _ _) hl01, keeps (slotAppend_nonTlp h10 _ _ _) hl10,
      keeps (slotAppend_nonTlp h11 _ _ _) hl11⟩
  · obtain ⟨-, hnot, -, hend⟩ := tlpClasses b3
    have hrem (c : Nibble) := slotAppend_inRemainder (r := r) hst s.cfg.accCap c (bufWord s.rx s.rx.rd)
    refine ⟨keeps (hrem _) hnot, (discard (hrem _)).trans ?_⟩
    rw [stateAfterSlot_last hend]
    rfl

/-- Settles O20: at slot 7 no class is looked at. -/
theorem endOfGroup : Obligations.EndOfGroup := fun _ _ _ hcur hslot =>
  have hunit := withCursor_endGroup hcur hslot
  ⟨hunit _, hunit _, hunit _, hunit _, hunit _⟩

/-! ### The end of a TLP -/

theorem stateAfterComplete_eq (r : Receiver) :
    stateAfterComplete r = if r.sf.toNat % 4 = 0 then .inData else .inRemainder := by
  simp only [stateAfterComplete, isTlp_slotNibble, decide_eq_true_eq]

theorem corruptReason_eq_none {r : Receiver} (hovf : r.ovf = false) (hexp : r.exp = .known r.n) :
    corruptReason r = none := by
  simp [corruptReason, hovf, hexp]

theorem completeReply_complete {r : Receiver} (h : corruptReason r = none) :
    completeReply r = .complete (accWords r) := by
  simp only [completeReply, h]

theorem completeReply_corrupt {r : Receiver} {c : CorruptReason} (h : corruptReason r = some c) :
    completeReply r = .corrupt c (accWords r) := by
  simp only [completeReply, h]

/-- An outcome other than OutOfSync ends the operation (R348, R152). -/
theorem emitRx_of_ne {r : Reply} (h : r ≠ .outOfSync) (s : State) :
    emitRx r s = { s with replies := s.replies ++ [r], diag := s.diag ++ diagOf r, ctl := .idle } := by
  rw [emitRx, ctlAfterRx_idle h]

theorem emitRx_corrupt (c : CorruptReason) (d : List Word) (s : State) : emitRx (.corrupt c d) s =
    { s with replies := s.replies ++ [.corrupt c d], diag := s.diag ++ [(c, d)], ctl := .idle } :=
  emitRx_of_ne (r := .corrupt c d) nofun s

/-- Only a Corrupt goes to the diagnostic port (R349). -/
theorem emitRx_complete (d : List Word) (s : State) :
    emitRx (.complete d) s = { s with replies := s.replies ++ [.complete d], ctl := .idle } := by
  have hdiag : s.diag ++ diagOf (.complete d) = s.diag := List.append_nil _
  rw [emitRx_of_ne (r := .complete d) nofun, hdiag]

theorem emitRx_noData (s : State) :
    emitRx .noData s = { s with replies := s.replies ++ [.noData], ctl := .idle } := by
  have hdiag : s.diag ++ diagOf .noData = s.diag := List.append_nil _
  rw [emitRx_of_ne (r := .noData) nofun, hdiag]

/-- Inside RX_DECODE at the end of a TLP, a step delivers its outcome (R160, R170). -/
theorem step_tlpComplete {s : State} {b : Bool} (hh : hasHalted s = false) (hcur : cursorOk s.rx = true)
    (hc : s.ctl = .rx b) (hst : s.rx.st = .tlpComplete) : step s = .next (stepComplete s) := by
  rw [step_rx hc hh hcur, rxTick, hst]
  rfl

/-- Settles O22: the reason of R345 decides between Corrupt and Complete. -/
theorem stepCompleteRule : Obligations.StepCompleteRule := by
  intro s b hh hcur hc hst d rx' corrupt
  have hstep := step_tlpComplete hh hcur hc hst
  have hrx : { accReset s.rx with st := stateAfterComplete s.rx } = rx' := by
    rw [stateAfterComplete_eq]
    rfl
  have corrupts {r : CorruptReason} (h : corruptReason s.rx = some r) : step s = .next (corrupt r) := by
    rw [hstep, stepComplete, completeReply_corrupt h, hrx, emitRx_corrupt]
    rfl
  refine ⟨fun h => corrupts ?_, fun h he => corrupts ?_, fun h he => corrupts ?_, fun k h he hk => corrupts ?_,
    fun h he => ?_⟩
  · simp [corruptReason, h]
  · simp [corruptReason, h, he]
  · simp [corruptReason, h, he]
  · simp [corruptReason, h, he, hk]
  · rw [hstep, stepComplete, completeReply_complete (corruptReason_eq_none h he), hrx, emitRx_complete]
    rfl

/-! ### Reads of the transport -/

/-- Word `i` of a buffer just read, clipped to `RX_BUF_BYTES` (R15, R37, R80). -/
theorem loadBuffer_take_word (bs : List Byte) (r : Receiver) {i : Nat} (h : i < min bs.length 1040 / 4) :
    bufWord (loadBuffer (bs.take 1040) r) i =
      be32 (bs.getD (4 * i) 0) (bs.getD (4 * i + 1) 0) (bs.getD (4 * i + 2) 0) (bs.getD (4 * i + 3) 0) := by
  have htake {k : Nat} (hk : k < 1040) : (bs.take 1040).getD k 0 = bs.getD k 0 := by
    simp [List.getD_eq_getElem?_getD, hk]
  rw [loadBuffer_word _ _ _ (by rw [List.length_take]; omega), htake (by omega), htake (by omega), htake (by omega),
    htake (by omega)]

/-- The state once a read of at least a whole word has filled the buffer and its first word is taken (R161). -/
def readState (bs : List Byte) (rest : List ReadAnswer) (s : State) : State :=
  (tookAnswer (.bytes bs) rest s).setRx { loadBuffer (bs.take 1040) s.rx with rd := 1 }

/-- A fetch with an empty cursor reads the transport and takes the first word read (R161). -/
theorem fetchWord_read {s : State} {bs : List Byte} {rest : List ReadAnswer} (hcur : s.rx.rd = s.rx.lim)
    (hfeed : s.rxFeed = .bytes bs :: rest) (hlen : 4 ≤ bs.length) :
    fetchWord s = .word (be32 (bs.getD 0 0) (bs.getD 1 0) (bs.getD 2 0) (bs.getD 3 0)) (readState bs rest s) := by
  have hclip : 4 ≤ (answerBytes (clipAnswer (.bytes bs))).length := by
    simp [answerBytes, clipAnswer, Lit.rxBufBytes, hlen]
  have hword := loadBuffer_take_word bs s.rx (i := 0) (by omega)
  rw [fetchWord, if_pos hcur, hfeed, fetchRead, if_pos hclip, takeWord]
  exact congrArg (Fetch.word · (readState bs rest s)) hword

/-- Settles O26: a buffered word is taken as it is; else the read fills the buffer first. -/
theorem fetchWordRule : Obligations.FetchWordRule := by
  refine fun s => ⟨fun hbuf => fetchWord_buffered hbuf, fun bs rest hcur hfeed hlen => ?_⟩
  refine ⟨readState bs rest s, fetchWord_read hcur hfeed hlen, rfl, ?_, fun i hi => ?_⟩
  · simp [readState, loadBuffer, Nat.min_comm]
  · have hi : i < (bs.take 1040).length / 4 := hi
    rw [List.length_take, Nat.min_comm] at hi
    exact loadBuffer_take_word bs s.rx hi

theorem stepAwait_word {s t : State} {q : Word} (e : fetchWord s = .word q t) :
    stepAwait s = .go (takeStatus (frameValue t.cfg.frameOrder q) t) := by
  rw [stepAwait, e]

theorem rxTick_awaiting {s : State} (hst : s.rx.st = .awaitingStatus) : rxTick s = stepAwait s := by
  rw [rxTick, hst]

theorem rxTick_slot {s : State} (hst : s.rx.st = .inData ∨ s.rx.st = .inRemainder) :
    rxTick s = consumeSlot (slotNibble s.rx) s := by
  rcases hst with hst | hst <;> rw [rxTick, hst]

theorem ctlAfterRx_outOfSync (b : Bool) : ctlAfterRx (.rx b) .outOfSync = if b then .rx true else .idle := by
  cases b <;> rfl

/-- An illegal word where a status word is expected, however it was fetched (R174, R152). -/
theorem step_illegal {s t : State} {b : Bool} {q : Word} (hh : hasHalted s = false) (hcur : cursorOk s.rx = true)
    (hc : s.ctl = .rx b) (hst : s.rx.st = .awaitingStatus) (e : fetchWord s = .word q t)
    (hf : frameValue t.cfg.frameOrder q ≠ 0x55556666) (hm : (frameValue t.cfg.frameOrder q).toNat / 2 ^ 28 ≠ 0xE) :
    step s = .next { t with
      rx := accReset t.rx, replies := t.replies ++ [.outOfSync], ctl := if b then .rx true else .idle } := by
  have hshape := fetchWord_shape s
  rw [e] at hshape
  obtain ⟨-, -, hct⟩ := hshape
  have hdiag : t.diag ++ diagOf .outOfSync = t.diag := List.append_nil _
  rw [step_rx hc hh hcur, rxTick_awaiting hst, stepAwait_word e,
    takeStatus_illegal hf (mt (markOf_eq_statusMarker_iff _).mp hm), ← ctlAfterRx_outOfSync, ← hc, ← hct, ← hdiag]
  rfl

/-- Settles O23: the word is fetched from the buffer or by a read, and is illegal. -/
theorem outOfSyncRule : Obligations.OutOfSyncRule := by
  intro s b hh hcur hc hst illegal
  constructor
  · rintro hbuf ⟨hf, hm⟩
    exact step_illegal hh hcur hc hst (fetchWord_buffered hbuf) hf hm
  · rintro bs rest hempty hfeed hlen ⟨hf, hm⟩ rx'
    refine ⟨(step_illegal hh hcur hc hst (fetchWord_read hempty hfeed hlen) hf hm).trans ?_,
      fun i hi => loadBuffer_take_word bs s.rx hi⟩
    have hrx : accReset (readState bs rest s).rx = rx' := by
      simp [accReset, readState, loadBuffer, rx', Nat.min_comm]
    rw [hrx]
    rfl

/-! ### Empty reads -/

/-- The state once a read has brought no whole word (R161). -/
def shortReadState (a : ReadAnswer) (rest : List ReadAnswer) (s : State) : State :=
  (tookAnswer a rest s).setRx (emptyCursor s.rx)

/-- A short answer is not clipped, so it is logged as it is. -/
theorem clipAnswer_of_isShort {a : ReadAnswer} (h : isShort a = true) : clipAnswer a = a := by
  cases a with
  | tErr => rfl
  | bytes bs =>
    have hlen : bs.length < 4 := by simpa [isShort] using h
    have hle : bs.length ≤ Lit.rxBufBytes := by simp only [Lit.rxBufBytes]; omega
    rw [clipAnswer, List.take_of_length_le hle]

theorem answerBytes_of_isShort {a : ReadAnswer} (h : isShort a = true) : ¬ 4 ≤ (answerBytes (clipAnswer a)).length := by
  rw [clipAnswer_of_isShort h]
  cases a with
  | tErr => simp [answerBytes]
  | bytes bs => simpa [isShort, answerBytes] using h

theorem shortReadState_eq {a : ReadAnswer} (h : isShort a = true) (rest : List ReadAnswer) (s : State) :
    shortReadState a rest s = { s with
      rx := { s.rx with rd := 0, lim := 0 }, rxFeed := rest, trace := s.trace ++ [.didRead a] } := by
  rw [shortReadState, tookAnswer, clipAnswer_of_isShort h]
  rfl

section
variable {s : State} {a : ReadAnswer} {rest : List ReadAnswer} (hcur : s.rx.rd = s.rx.lim)
  (hfeed : s.rxFeed = a :: rest) (hs : isShort a = true)
include hcur hfeed hs

/-- An empty read that ends the operation (R161, R172, R173). -/
theorem fetchWord_short_ended {t : State} (e : emptyRead (shortReadState a rest s) = (true, t)) :
    fetchWord s = .ended t := by
  unfold shortReadState at e
  rw [fetchWord, if_pos hcur, hfeed, fetchRead, if_neg (answerBytes_of_isShort hs)]
  simp only [tookAnswer_rx, e]

/-- An empty read after which the transport is read again (R161, R173). -/
theorem fetchWord_short_retry {t : State} (e : emptyRead (shortReadState a rest s) = (false, t)) :
    fetchWord s = fetchRead rest t := by
  unfold shortReadState at e
  rw [fetchWord, if_pos hcur, hfeed, fetchRead, if_neg (answerBytes_of_isShort hs)]
  simp only [tookAnswer_rx, e]
end

/-- A fetch that ends the operation, before a status word or a data slot. -/
theorem step_fetch_ended {s t : State} {b : Bool} (hh : hasHalted s = false) (hcur : cursorOk s.rx = true)
    (hc : s.ctl = .rx b) (hst : s.rx.st = .awaitingStatus ∨
      s.rx.slot ≠ 7 ∧ (s.rx.st = .inData ∨ s.rx.st = .inRemainder)) (e : fetchWord s = .ended t) :
    step s = .next t := by
  rw [step_rx hc hh hcur]
  rcases hst with hst | ⟨hslot, hst⟩
  · rw [rxTick_awaiting hst, stepAwait, e]
    rfl
  · have hslot : s.rx.slot ≠ Lit.slotsPerGroup := hslot
    rw [rxTick_slot hst, consumeSlot, if_neg hslot, e]
    rfl

/-! The three ways an empty read ends (R172, R173). -/

section
variable {s : State}

theorem emptyRead_noData (hdue : noDataDue s.cfg s.rx = true) : emptyRead s = (true, emitRx .noData s) := if_pos hdue

variable (hdue : noDataDue s.cfg s.rx = false)
include hdue

theorem emptyRead_spent (hspent : retriesSpent s.cfg s.rx = true) : emptyRead s =
    (true, emitRx (.corrupt .retryExhausted (accWords s.rx))
      (s.setRx { accReset s.rx with st := .awaitingStatus })) := by
  simp [emptyRead, hdue, hspent]

theorem emptyRead_retry (hspent : retriesSpent s.cfg s.rx = false) :
    emptyRead s = (false, s.setRx { s.rx with retries := s.rx.retries + 1 }) := by
  simp [emptyRead, hdue, hspent]
end

theorem noDataDue_iff (p : Params) (r : Receiver) : noDataDue p r = true ↔
    r.st = .awaitingStatus ∨ p.noDataPolicy = .stateOrIdle ∧ r.n = 0 ∧ r.ovf = false := by
  cases e : p.noDataPolicy <;> simp [noDataDue, e]

theorem retriesSpent_iff (p : Params) (r : Receiver) :
    retriesSpent p r = true ↔ ∃ m, p.maxEmptyRetries = some m ∧ m < r.retries + 1 := by
  cases e : p.maxEmptyRetries <;> simp [retriesSpent, e]

/-- Inside a group an empty read reports no NoData but under STATE_OR_IDLE with nothing held (R172). -/
theorem noDataDue_eq_false {p : Params} {r : Receiver} (hst : r.st = .inData ∨ r.st = .inRemainder)
    (hpol : p.noDataPolicy = .state ∨ r.n ≠ 0 ∨ r.ovf = true) : noDataDue p r = false := by
  rw [← Bool.not_eq_true, noDataDue_iff]
  rintro (haw | ⟨hp, hn, hovf⟩)
  · rcases hst with hst | hst <;> cases haw.symm.trans hst
  · simp [hp, hn, hovf] at hpol

theorem retriesSpent_eq_false {p : Params} {r : Receiver}
    (h : p.maxEmptyRetries = none ∨ ∃ m, p.maxEmptyRetries = some m ∧ r.retries + 1 ≤ m) :
    retriesSpent p r = false := by
  rw [← Bool.not_eq_true, retriesSpent_iff]
  rintro ⟨m, hm, hlt⟩
  rcases h with hnone | ⟨m', hm', hle⟩
  · cases hm.symm.trans hnone
  · cases hm.symm.trans hm'
    omega

/-- Settles O24: the empty read is one that NODATA_POLICY names. -/
theorem noDataRule : Obligations.NoDataRule := by
  intro s b a rest hh hcur hc hempty hfeed hs hpol
  have hdue : noDataDue s.cfg s.rx = true := (noDataDue_iff _ _).mpr <|
    hpol.imp_right fun ⟨hp, hn, hovf, _⟩ => ⟨hp, hn, hovf⟩
  rw [step_fetch_ended hh hcur hc (hpol.imp_right fun ⟨_, _, _, hslot, hst⟩ => ⟨hslot, hst⟩)
    (fetchWord_short_ended hempty hfeed hs (emptyRead_noData hdue)), emitRx_noData, shortReadState_eq hs]

/-- A slot depends on the state only through the word fetched for it. -/
theorem consumeSlot_congr {s t : State} (hs : s.rx.slot ≠ 7) (ht : t.rx.slot ≠ 7) (e : fetchWord s = fetchWord t)
    (c : Nibble) : consumeSlot c s = consumeSlot c t := by
  have hs : s.rx.slot ≠ Lit.slotsPerGroup := hs
  have ht : t.rx.slot ≠ Lit.slotsPerGroup := ht
  rw [consumeSlot, consumeSlot, if_neg hs, if_neg ht, e]

/-- Settles O25: the empty read reports no NoData, so the retries left decide whether the transport is read again. -/
theorem retryRule : Obligations.RetryRule := by
  intro s b a rest hh hcur hc hempty hfeed hs hst hslot hpol t d
  have hdue : noDataDue s.cfg s.rx = false := noDataDue_eq_false hst hpol
  constructor
  · intro hmore
    let u : State := { t with rx := { s.rx with rd := 0, lim := 0, retries := s.rx.retries + 1 } }
    have hread : emptyRead (shortReadState a rest s) = (false, u) := by
      rw [emptyRead_retry (s := shortReadState a rest s) hdue (retriesSpent_eq_false hmore), shortReadState_eq hs]
      rfl
    have hfetch : fetchWord s = fetchWord u := fetchWord_short_retry hempty hfeed hs hread
    rw [step_rx hc hh hcur, step_rx (s := u) hc hh rfl, rxTick_slot hst, rxTick_slot (s := u) hst,
      consumeSlot_congr hslot (t := u) hslot hfetch]
    rfl
  · intro m hm hlt
    have hspent : retriesSpent s.cfg s.rx = true := (retriesSpent_iff _ _).mpr ⟨m, hm, hlt⟩
    have hread := emptyRead_spent (s := shortReadState a rest s) hdue hspent
    rw [step_fetch_ended hh hcur hc (.inr ⟨hslot, hst⟩) (fetchWord_short_ended hempty hfeed hs hread), emitRx_corrupt,
      shortReadState_eq hs]
    rfl

/-! ### The outcome of RX_DECODE -/

/-- Settles O27: RX_DECODE is the receive operation that ends at the first outcome. -/
theorem rxDecodeOutcome : Obligations.RxDecodeOutcome := by
  intro s hinv hc
  have hok := (machineOk_iff s).mpr hinv
  obtain ⟨t, k, n, hrun, ht, hn, hstands⟩ := runOp_rx hok hc false
  obtain rfl := hn rfl
  refine ⟨t, k, (withCursor_of_cursorOk hok.cursorOk _).trans (congrArg _ hrun), ht, ?_⟩
  cases hstands with
  | ended r hctl hreplies hdiag hr =>
    simp only [List.replicate_zero, List.append_nil] at hreplies
    refine .inl ⟨hctl, ?_⟩
    rcases hr with (rfl | ⟨d, rfl⟩ | ⟨c, d, rfl⟩) | ⟨-, rfl⟩
    · exact .inl ⟨hreplies, hdiag.trans (List.append_nil _)⟩
    · exact .inr (.inr (.inl ⟨d, hreplies, hdiag.trans (List.append_nil _)⟩))
    · exact .inr (.inr (.inr ⟨c, d, hreplies, hdiag⟩))
    · exact .inr (.inl ⟨hreplies, hdiag.trans (List.append_nil _)⟩)
  | waits hctl hreplies hdiag hfeed hcur =>
    exact .inr ⟨hctl, hreplies.trans (List.append_nil _), hdiag, hfeed, hcur⟩

/-! ## A stream of groups -/

/-! ### The words of the buffer -/

theorem wordsOf_eq_map : ∀ bs : List Byte, wordsOf bs = (List.range (bs.length / 4)).map fun i =>
    be32 (bs.getD (4 * i) 0) (bs.getD (4 * i + 1) 0) (bs.getD (4 * i + 2) 0) (bs.getD (4 * i + 3) 0)
  | b0 :: b1 :: b2 :: b3 :: rest => by
    have hlen : (b0 :: b1 :: b2 :: b3 :: rest).length / 4 = rest.length / 4 + 1 := by
      simp only [List.length_cons]
      omega
    rw [wordsOf, wordsOf_eq_map rest, hlen, List.range_succ_eq_map, List.map_cons, List.map_map]
    rfl
  | [] | [_] | [_, _] | [_, _, _] => by simp [wordsOf]

/-- The words left in the buffer depend on the buffer and its cursor alone. -/
theorem bufferedWords_congr {r r' : Receiver} (h : (r'.rxbuf, r'.rd, r'.lim) = (r.rxbuf, r.rd, r.lim)) :
    bufferedWords r' = bufferedWords r := by
  simp only [Prod.mk.injEq] at h
  obtain ⟨hbuf, hrd, hlim⟩ := h
  simp only [bufferedWords, bufWord, hbuf, hrd, hlim]

theorem bufferedWords_empty {r : Receiver} (h : r.rd = r.lim) : bufferedWords r = [] := by
  simp [bufferedWords, h]

/-- The word at the cursor is the first of those left (R37, R161). -/
theorem bufferedWords_cons {r : Receiver} (h : r.rd < r.lim) :
    bufferedWords r = bufWord r r.rd :: bufferedWords { r with rd := r.rd + 1 } := by
  have hlen : r.lim - r.rd = (r.lim - (r.rd + 1)) + 1 := by omega
  rw [bufferedWords, hlen, List.range_succ_eq_map, List.map_cons, List.map_map]
  refine congrArg (bufWord r r.rd :: ·) (List.map_congr_left fun k _ => ?_)
  simp only [Function.comp, Nat.add_assoc, Nat.succ_eq_add_one, Nat.add_comm k 1]
  rfl

/-- A buffer just read holds the whole words of the read (R80, R161). -/
theorem bufferedWords_loadBuffer (bs : List Byte) (r : Receiver) : bufferedWords (loadBuffer bs r) = wordsOf bs := by
  rw [wordsOf_eq_map, bufferedWords, loadBuffer_rd, loadBuffer_lim]
  refine List.map_congr_left fun i hi => ?_
  rw [List.mem_range] at hi
  rw [Nat.zero_add, loadBuffer_word _ _ _ (by omega)]

/-- The words a run of RX_DECODE meets next: those left in the buffer, then those of the coming reads. -/
structure Upcoming (rest : List ReadAnswer) (chunks : List (List Byte)) (ws : List Word) (s : State) : Prop where
  sized : ∀ b ∈ chunks, 4 ≤ b.length ∧ b.length ≤ 1040
  feed : s.rxFeed = chunks.map .bytes ++ rest
  words : bufferedWords s.rx ++ chunks.flatMap wordsOf = ws

/-- Nothing outside the receiver has changed but that these reads have been taken (R15, R161). -/
def HasRead (c : List (List Byte)) (s t : State) : Prop :=
  t = { s with rx := t.rx, rxFeed := t.rxFeed, trace := s.trace ++ c.map fun b => .didRead (.bytes b) }

theorem hasRead_setRx (s : State) (r : Receiver) : HasRead [] s (s.setRx r) := by
  simp [HasRead, State.setRx]

theorem HasRead.trans {c d : List (List Byte)} {s t u : State} (h : HasRead c s t) (k : HasRead d t u) :
    HasRead (c ++ d) s u := by
  unfold HasRead at *
  rw [h] at k
  rw [List.map_append, ← List.append_assoc]
  exact k

theorem HasRead.setRx {c : List (List Byte)} {s t : State} (h : HasRead c s t) (r : Receiver) :
    HasRead c s (t.setRx r) := by
  have hset := h.trans (hasRead_setRx t r)
  rwa [List.append_nil] at hset

theorem HasRead.cfg {c : List (List Byte)} {s t : State} (h : HasRead c s t) : t.cfg = s.cfg := by
  rw [h]

theorem HasRead.ctl {c : List (List Byte)} {s t : State} (h : HasRead c s t) : t.ctl = s.ctl := by
  rw [h]

theorem Upcoming.congr {rest : List ReadAnswer} {chunks : List (List Byte)} {ws : List Word} {s t : State}
    (h : Upcoming rest chunks ws s) (hfeed : t.rxFeed = s.rxFeed)
    (hbuf : (t.rx.rxbuf, t.rx.rd, t.rx.lim) = (s.rx.rxbuf, s.rx.rd, s.rx.lim)) : Upcoming rest chunks ws t :=
  ⟨h.sized, hfeed.trans h.feed, by rw [bufferedWords_congr hbuf, h.words]⟩

/-- A fetch takes the next word, and a read only when the buffer is empty (R161). -/
theorem Upcoming.fetch {rest : List ReadAnswer} {chunks : List (List Byte)} {w : Word} {ws : List Word} {s : State}
    (h : Upcoming rest chunks (w :: ws) s) (hle : s.rx.rd ≤ s.rx.lim) :
    ∃ c chunks' t, chunks = c ++ chunks' ∧ fetchWord s = .word w t ∧ Upcoming rest chunks' ws t ∧ HasRead c s t ∧
      t.rx = { s.rx with rxbuf := t.rx.rxbuf, rd := t.rx.rd, lim := t.rx.lim, retries := t.rx.retries } := by
  obtain ⟨hsized, hfeed, hwords⟩ := h
  rcases Nat.lt_or_eq_of_le hle with hlt | hempty
  · rw [bufferedWords_cons hlt, List.cons_append, List.cons.injEq] at hwords
    obtain ⟨rfl, hws⟩ := hwords
    exact ⟨[], chunks, _, rfl, fetchWord_buffered (Nat.ne_of_lt hlt), ⟨hsized, hfeed, hws⟩, hasRead_setRx s _, rfl⟩
  · rw [bufferedWords_empty hempty, List.nil_append] at hwords
    cases chunks with
    | nil => cases hwords
    | cons b chunks =>
      obtain ⟨hmin, hmax⟩ := hsized b List.mem_cons_self
      have htake : b.take 1040 = b := List.take_of_length_le hmax
      have hload : bufferedWords (loadBuffer b s.rx) =
          be32 (b.getD 0 0) (b.getD 1 0) (b.getD 2 0) (b.getD 3 0) ::
            bufferedWords { loadBuffer b s.rx with rd := 1 } := by
        rw [bufferedWords_cons (show 0 < b.length / 4 by omega)]
        exact congrArg (· :: _) (loadBuffer_word b s.rx 0 (by omega))
      rw [List.flatMap_cons, ← bufferedWords_loadBuffer b s.rx, hload, List.cons_append, List.cons.injEq] at hwords
      obtain ⟨rfl, hws⟩ := hwords
      have hfeed : s.rxFeed = .bytes b :: (chunks.map .bytes ++ rest) := hfeed
      refine ⟨[b], chunks, readState b (chunks.map .bytes ++ rest) s, rfl, fetchWord_read hempty hfeed hmin,
        ⟨fun d hd => hsized d (List.mem_cons_of_mem _ hd), rfl, ?_⟩, ?_, rfl⟩
      · rw [← hws, readState, htake]
        rfl
      · simp [HasRead, readState, State.setRx, tookAnswer, clipAnswer, Lit.rxBufBytes, htake]

/-! ### The words of a TLP in the accumulator -/

/-- The expected count says what the length function says of any TLP that begins with these words (R169, R222): no
count yet while all are TLPPFX words, else the count of the header, or that it is invalid. -/
def Tracks (cur : List Word) (pfx : Nat) (exp : Expected) : Prop :=
  match exp with
  | .unknown => ∀ tail, tlpLen (cur ++ tail) = tlpLenFrom pfx tail
  | .known k => ∀ tail, ∃ i hw pay d, tlpLen (cur ++ tail) = .len i hw pay d k
  | .invalid => ∀ tail, ∃ i, tlpLen (cur ++ tail) = .bad i

theorem tracks_nil : Tracks [] 0 .unknown := fun _ => rfl

/-- UpdateExpected follows the length function word by word (R169, R222). -/
theorem Tracks.trackExpected {cur : List Word} {r : Receiver} (h : Tracks cur r.pfx r.exp) (w : Word) :
    Tracks (cur ++ [w]) (trackExpected w r).pfx (trackExpected w r).exp := by
  have happ (tail : List Word) : cur ++ [w] ++ tail = cur ++ (w :: tail) := by simp
  by_cases hu : r.exp = .unknown
  · rw [hu] at h
    have hfrom (tail : List Word) : tlpLen (cur ++ [w] ++ tail) = tlpLenFrom r.pfx (w :: tail) :=
      (congrArg tlpLen (happ tail)).trans (h (w :: tail))
    cases e : hdrLen w with
    | prefixWord =>
      rw [trackExpected_prefix hu e, hu]
      intro tail
      rw [hfrom, tlpLenFrom, e]
    | header hw pay d t =>
      rw [trackExpected_header hu e]
      intro tail
      exact ⟨r.pfx, hw, pay, d, by rw [hfrom, tlpLenFrom, e]⟩
    | invalid =>
      rw [trackExpected_invalid hu e]
      intro tail
      exact ⟨r.pfx, by rw [hfrom, tlpLenFrom, e]⟩
  · rw [trackExpected_fixed hu]
    cases e : r.exp with
    | unknown => exact absurd e hu
    | known k =>
      rw [e] at h
      intro tail
      rw [happ]
      exact h (w :: tail)
    | invalid =>
      rw [e] at h
      intro tail
      rw [happ]
      exact h (w :: tail)

/-- The accumulator holds exactly these words of a TLP and has not overflowed (R168, R169). -/
structure Holds (cur : List Word) (r : Receiver) : Prop where
  n : r.n = cur.length
  words : accWords r = cur
  ovf : r.ovf = false
  tracks : Tracks cur r.pfx r.exp

theorem Holds.congr {cur : List Word} {r r' : Receiver} (h : Holds cur r)
    (e : (r'.n, r'.acc, r'.pfx, r'.exp, r'.ovf) = (r.n, r.acc, r.pfx, r.exp, r.ovf)) : Holds cur r' := by
  simp only [Prod.mk.injEq] at e
  obtain ⟨hn, hacc, hpfx, hexp, hovf⟩ := e
  obtain ⟨h1, h2, h3, h4⟩ := h
  constructor <;> simpa only [accWords, hn, hacc, hpfx, hexp, hovf]

/-- Between two TLPs the accumulator holds no word (R40.6, R171). -/
theorem holds_nil {p : Params} {r : Receiver} (h : AccOk p r) (hn : r.n = 0) : Holds [] r := by
  obtain ⟨hexp, hpfx, hovf⟩ := h.of_empty hn
  refine ⟨hn, by simp [accWords, hn], hovf, ?_⟩
  rw [hexp, hpfx]
  exact tracks_nil

theorem trackExpected_frame (w : Word) (r : Receiver) : (trackExpected w r).n = r.n ∧
    (trackExpected w r).acc = r.acc ∧ (trackExpected w r).ovf = r.ovf := by
  unfold trackExpected
  split
  · rcases updateExpected_cases w r with ⟨-, e⟩ | ⟨_, _, _, _, -, e⟩ | ⟨-, e⟩ <;> simp [e]
  · exact ⟨rfl, rfl, rfl⟩

/-- Append below the capacity adds the word (R168). -/
theorem Holds.append {p : Params} {cur : List Word} {r : Receiver} (h : Holds cur r) (hacc : AccOk p r)
    (hroom : cur.length < p.accCap) (w : Word) : Holds (cur ++ [w]) (append p.accCap w r) := by
  have hlt : r.n < p.accCap := h.n ▸ hroom
  obtain ⟨hn, hwords, hovf⟩ := trackExpected_frame w { r with acc := r.acc.set r.n w, n := r.n + 1 }
  rw [append_room hlt]
  refine ⟨hn.trans ?_, ?_, hovf.trans h.ovf,
    Tracks.trackExpected (r := { r with acc := r.acc.set r.n w, n := r.n + 1 }) h.tracks w⟩
  · simp [h.n]
  · rw [accWords, hn, hwords]
    have hset : r.n < (r.acc.set r.n w).length := by rw [List.length_set, hacc.length_eq]; exact hlt
    rw [List.take_succ_eq_append_getElem hset, List.getElem_set_self, List.take_set_of_le le_rfl]
    exact congrArg (· ++ [w]) h.words

/-- A TLP with the count its words declare is not corrupt (R170, R176). -/
theorem Holds.corruptReason {ws : List Word} {r : Receiver} (h : Holds ws r) {i pay d : Nat} {hw : HdrWords}
    (hlen : tlpLen ws = .len i hw pay d ws.length) : corruptReason r = none := by
  have htracks := h.tracks
  cases e : r.exp with
  | unknown =>
    rw [e] at htracks
    have hshort := htracks []
    rw [List.append_nil, hlen] at hshort
    cases hshort
  | known k =>
    rw [e] at htracks
    obtain ⟨i', hw', pay', d', hk⟩ := htracks []
    rw [List.append_nil, hlen] at hk
    cases hk
    exact corruptReason_eq_none h.ovf (by rw [e, h.n])
  | invalid =>
    rw [e] at htracks
    obtain ⟨i', hbad⟩ := htracks []
    rw [List.append_nil, hlen] at hbad
    cases hbad

/-! ### The status word of a group -/

theorem nib_toNat (v : Word) (k : Nat) : (nib v k).toNat = v.toNat / 16 ^ k % 16 := by
  rw [nib, BitVec.extractLsb'_toNat, Nat.shiftRight_eq_div_pow, pow_mul]
  norm_num

/-- Advance moves every class one place down (R165). -/
theorem nib_ushiftRight (v : Word) (k : Nat) : nib (v >>> 4) k = nib v (k + 1) := by
  apply BitVec.eq_of_toNat_eq
  rw [nib_toNat, nib_toNat, BitVec.toNat_ushiftRight, Nat.shiftRight_eq_div_pow, Nat.div_div_eq_div_mul, pow_succ' 16 k]

theorem slotField_lt (sl : List Slot) : slotField sl < 16 ^ sl.length := by
  induction sl with
  | nil => exact Nat.one_pos
  | cons x rest ih =>
    have hx := x.1.isLt
    rw [slotField, List.length_cons, pow_succ]
    omega

theorem slotField_append (a b : List Slot) : slotField (a ++ b) = slotField a + 16 ^ a.length * slotField b := by
  induction a with
  | nil => simp [slotField]
  | cons x rest ih =>
    rw [List.cons_append, slotField, slotField, ih, List.length_cons, pow_succ]
    ring

/-- Nibble k of a slot field is the class of slot k (R101). -/
theorem slotField_digit {sl : List Slot} {k : Nat} (h : k < sl.length) :
    slotField sl / 16 ^ k % 16 = (sl.getD k (0, 0)).1.toNat := by
  induction sl generalizing k with
  | nil => cases h
  | cons x rest ih =>
    have hx : x.1.toNat < 16 := x.1.isLt
    cases k with
    | zero =>
      rw [slotField, pow_zero, Nat.div_one, List.getD_cons_zero]
      omega
    | succ k =>
      have hdiv : slotField (x :: rest) / 16 = slotField rest := by rw [slotField]; omega
      rw [pow_succ', ← Nat.div_div_eq_div_mul, hdiv, List.getD_cons_succ]
      exact ih (Nat.lt_of_succ_lt_succ h)

section
variable {sl : List Slot} (h : sl.length = 7)
include h

/-- The status word of a group is its seven classes with the marker above them (R101). -/
theorem statusWord_toNat : (statusWord sl).toNat = slotField (sl ++ [(0xE, 0)]) := by
  have hlt := slotField_lt sl
  rw [h] at hlt
  have hmarker : slotField [((0xE : Nibble), (0 : Word))] = 0xE := rfl
  rw [statusWord, BitVec.toNat_ofNat, slotField_append, h, hmarker]
  omega

theorem nib_statusWord {k : Nat} (hk : k < 8) : nib (statusWord sl) k = ((sl ++ [(0xE, 0)]).getD k (0, 0)).1 := by
  apply BitVec.eq_of_toNat_eq
  rw [nib_toNat, statusWord_toNat h, slotField_digit (by simp [h, hk])]

theorem markOf_statusWord : markOf (statusWord sl) = Lit.statusMarker := by
  have hmark := nib_statusWord h (k := 7) (by decide)
  rw [List.getD_append_right _ _ _ _ (by omega), h] at hmark
  exact hmark

theorem nib_statusWord_class {k : Nat} (hk : k < sl.length) : nib (statusWord sl) k = (sl.getD k (0, 0)).1 := by
  rw [nib_statusWord h (by omega), List.getD_append _ _ _ _ hk]
end

theorem byteOf_be32 (b0 b1 b2 b3 : Byte) : byteOf (be32 b0 b1 b2 b3) 0 = b0 ∧ byteOf (be32 b0 b1 b2 b3) 1 = b1 ∧
    byteOf (be32 b0 b1 b2 b3) 2 = b2 ∧ byteOf (be32 b0 b1 b2 b3) 3 = b3 := by
  refine ⟨?_, ?_, ?_, ?_⟩ <;>
    simp (disch := omega) only [byteOf, be32, BitVec.extractLsb'_append_eq_of_le,
      BitVec.extractLsb'_append_eq_of_add_le, BitVec.extractLsb'_eq_self, Nat.reduceSub, Nat.reduceMul]

theorem be32_byteOf (w : Word) : be32 (byteOf w 0) (byteOf w 1) (byteOf w 2) (byteOf w 3) = w := by
  rw [be32, byteOf, byteOf, byteOf, byteOf, BitVec.extractLsb'_append_extractLsb'_eq_extractLsb',
    BitVec.extractLsb'_append_extractLsb'_eq_extractLsb', BitVec.extractLsb'_append_extractLsb'_eq_extractLsb',
    BitVec.extractLsb'_eq_self] <;> rfl

/-- Reading a word in either byte order undoes writing it so (R75). -/
theorem frameValue_frameValue (o : FrameOrder) (w : Word) : frameValue o (frameValue o w) = w := by
  cases o with
  | be => rfl
  | le =>
    obtain ⟨h0, h1, h2, h3⟩ := byteOf_be32 (byteOf w 3) (byteOf w 2) (byteOf w 1) (byteOf w 0)
    show swapBytes (swapBytes w) = w
    rw [swapBytes, swapBytes, h0, h1, h2, h3, be32_byteOf]

/-! ### The place in a group -/

/-- These slots of the current group come next (R32, R33). -/
def InSlots (sl : List Slot) (r : Receiver) : Prop :=
  r.slot + sl.length = 7 ∧ ∀ k < sl.length, nib r.sf k = (sl.getD k (0, 0)).1

theorem InSlots.slot_ne {x : Slot} {sl : List Slot} {r : Receiver} (h : InSlots (x :: sl) r) : r.slot ≠ 7 := by
  have hlen := h.1
  rw [List.length_cons] at hlen
  omega

theorem InSlots.slotNibble {x : Slot} {sl : List Slot} {r : Receiver} (h : InSlots (x :: sl) r) :
    slotNibble r = x.1 := h.2 0 (Nat.succ_pos _)

/-- A consumed slot leaves the slots after it (R165). -/
theorem InSlots.advance {x : Slot} {sl : List Slot} {r r' : Receiver} (h : InSlots (x :: sl) r)
    (e : (r'.sf, r'.slot) = (r.sf >>> 4, r.slot + 1)) : InSlots sl r' := by
  simp only [Prod.mk.injEq] at e
  obtain ⟨hsf, hslot⟩ := e
  obtain ⟨hlen, hnib⟩ := h
  rw [List.length_cons] at hlen
  refine ⟨by omega, fun k hk => ?_⟩
  rw [hsf, nib_ushiftRight, hnib (k + 1) (Nat.succ_lt_succ hk), List.getD_cons_succ]

theorem InSlots.congr {sl : List Slot} {r r' : Receiver} (h : InSlots sl r)
    (e : (r'.sf, r'.slot) = (r.sf, r.slot)) : InSlots sl r' := by
  simp only [Prod.mk.injEq] at e
  obtain ⟨hsf, hslot⟩ := e
  simpa only [InSlots, hsf, hslot] using h

/-- An accepted status word stands before its seven slots (R162, R101). -/
theorem inSlots_statusWord {sl : List Slot} (h : sl.length = 7) {r : Receiver} (hsf : r.sf = statusWord sl)
    (hslot : r.slot = 0) : InSlots sl r :=
  ⟨by omega, fun k hk => by rw [hsf, nib_statusWord_class h hk]⟩

/-- The class in the field tells whether a TLP slot comes next; at the end of the group the marker stands there, whose
pattern is NON_TLP (R103, R165, R167). -/
theorem InSlots.isTlp_eq {sl : List Slot} {r : Receiver} (h : InSlots sl r) (hf : FieldOk r)
    (hg : inGroup r.st = true) : isTlp (Machine.slotNibble r) = nextIsTlp sl := by
  cases sl with
  | cons x sl => rw [h.slotNibble, nextIsTlp]
  | nil =>
    have hslot : r.slot = 7 := h.1
    have hfield := hf.field hg
    rw [hslot] at hfield
    have hsf : r.sf.toNat = 0xE := by simpa using hfield
    rw [isTlp_slotNibble, hsf]
    rfl

theorem standsBefore_iff {r : Receiver} {sl : List Slot} : standsBefore r sl ↔
    (r.st = .awaitingStatus ∧ sl = []) ∨
      (InSlots sl r ∧ (r.st = .inData ∨ (r.st = .inRemainder ∧ nextIsTlp sl = false))) := by
  simp only [standsBefore, InSlots, and_assoc]

/-! ### What is left of a stream up to the end of a TLP -/

/-- The words up to the end of a TLP: with the slots `sl` of the current group and the groups `gs` to come, these are
the wire words `used`, whose slots are `slots`; the slots `post` of the last group come after them (R105, R104). -/
structure Ahead (o : FrameOrder) (used : List Word) (sl : List Slot) (gs : List (Nat × List Slot))
    (slots post : List Slot) : Prop where
  sized : ∀ g ∈ gs, g.2.length = 7
  slots : sl ++ gs.flatMap (·.2) = slots ++ post
  last : gs = [] ∨ post.length < 7
  words : used ++ post.map (·.2) = sl.map (·.2) ++ streamWords o gs

theorem streamWords_cons (o : FrameOrder) (g : Nat × List Slot) (gs : List (Nat × List Slot)) :
    streamWords o (g :: gs) = List.replicate g.1 (frameValue o 0x55556666) ++
      frameValue o (statusWord g.2) :: (g.2.map (·.2) ++ streamWords o gs) := by
  simp [streamWords, groupWords]

/-- A stream has a word for every slot (R105). -/
theorem slots_length_le (o : FrameOrder) (gs : List (Nat × List Slot)) :
    (gs.flatMap (·.2)).length ≤ (streamWords o gs).length := by
  induction gs with
  | nil => exact le_rfl
  | cons g gs ih =>
    rw [streamWords_cons]
    simp only [List.flatMap_cons, List.length_append, List.length_cons, List.length_map]
    omega

section
variable {o : FrameOrder} {used : List Word} {sl : List Slot} {gs : List (Nat × List Slot)} {x : Slot}
  {slots post : List Slot}

/-- Before a slot of the current group, its word comes next. -/
theorem Ahead.slot {y : Slot} (h : Ahead o used (y :: sl) gs (x :: slots) post) :
    y = x ∧ ∃ used', used = x.2 :: used' ∧ Ahead o used' sl gs slots post := by
  obtain ⟨hsized, hslots, hlast, hwords⟩ := h
  obtain ⟨rfl, (htail : sl ++ gs.flatMap (·.2) = slots ++ post)⟩ := List.cons_eq_cons.mp hslots
  refine ⟨rfl, ?_⟩
  cases used with
  | nil =>
    have hlen := congrArg List.length hwords
    have hcount := congrArg List.length htail
    have hle := slots_length_le o gs
    simp only [List.nil_append, List.length_append, List.length_map, List.map_cons, List.length_cons] at hlen hcount
    omega
  | cons w used' =>
    obtain ⟨rfl, hrest⟩ := List.cons_eq_cons.mp hwords
    exact ⟨used', rfl, hsized, htail, hlast, hrest⟩

/-- At the end of a group, the fillers and the status word of the next one come next. -/
theorem Ahead.group (h : Ahead o used [] gs (x :: slots) post) :
    ∃ (g : Nat × List Slot) (gs' : List (Nat × List Slot)) (used' : List Word), g.2.length = 7 ∧
      used = List.replicate g.1 (frameValue o 0x55556666) ++ frameValue o (statusWord g.2) :: used' ∧
      Ahead o used' g.2 gs' (x :: slots) post := by
  obtain ⟨hsized, hslots, hlast, hwords⟩ := h
  cases gs with
  | nil => cases hslots
  | cons g gs' =>
    have hg := hsized g List.mem_cons_self
    rw [List.map_nil, List.nil_append, streamWords_cons] at hwords
    have hlen := congrArg List.length hwords
    have hcount := congrArg List.length hslots
    have hle := slots_length_le o gs'
    simp only [List.nil_append, List.flatMap_cons, List.length_append, List.length_map, List.length_cons,
      List.length_replicate] at hlen hcount
    have hsplit : List.replicate g.1 (frameValue o 0x55556666) ++ [frameValue o (statusWord g.2)] <+: used := by
      refine List.prefix_of_prefix_length_le ?_ (List.prefix_append used (post.map (·.2))) ?_
      · rw [hwords]
        exact ⟨g.2.map (·.2) ++ streamWords o gs', by simp⟩
      · simp only [List.length_append, List.length_replicate, List.length_cons, List.length_nil]
        omega
    obtain ⟨used', rfl⟩ := hsplit
    refine ⟨g, gs', used', hg, by simp, fun g' hg' => hsized g' (List.mem_cons_of_mem _ hg'), hslots,
      .inr (hlast.resolve_left nofun), ?_⟩
    simpa using hwords

/-- After the last slot of the TLP nothing but the slots left in the group is ahead. -/
theorem Ahead.done (h : Ahead o used sl gs [] post) : used = [] ∧ sl = post := by
  obtain ⟨hsized, hslots, hlast, hwords⟩ := h
  cases gs with
  | nil =>
    have hsl : sl = post := by simpa using hslots
    refine ⟨?_, hsl⟩
    simpa [hsl, streamWords] using hwords
  | cons g gs =>
    have hg := hsized g List.mem_cons_self
    have hpost := hlast.resolve_left nofun
    have hcount := congrArg List.length hslots
    simp only [List.nil_append, List.flatMap_cons, List.length_append] at hcount
    omega

/-- The words of the slots left over are the last of the stream, so the others lead up to the end of the TLP. -/
theorem ahead_of_slots (o : FrameOrder) (hsized : ∀ g ∈ gs, g.2.length = 7)
    (hslots : sl ++ gs.flatMap (·.2) = slots ++ post) (hlast : gs = [] ∨ post.length < 7) :
    Ahead o ((sl.map (·.2) ++ streamWords o gs).take ((sl.map (·.2) ++ streamWords o gs).length - post.length))
      sl gs slots post := by
  refine ⟨hsized, hslots, hlast, ?_⟩
  have hsuffix : post.map (·.2) <:+ sl.map (·.2) ++ streamWords o gs := by
    rcases List.eq_nil_or_concat gs with rfl | ⟨gs', g, rfl⟩
    · have hsl : sl = slots ++ post := by simpa using hslots
      exact ⟨slots.map (·.2), by simp [hsl, streamWords]⟩
    · have hg := hsized g (by simp)
      have hpost := hlast.resolve_left (by simp)
      have hgroup : post <:+ g.2 := by
        refine List.suffix_of_suffix_length_le (List.suffix_append slots post) ?_ (by omega)
        rw [← hslots]
        exact ⟨sl ++ gs'.flatMap (·.2), by simp⟩
      refine (hgroup.map (·.2)).trans ⟨sl.map (·.2) ++ (streamWords o gs' ++
        (List.replicate g.1 (frameValue o 0x55556666) ++ [frameValue o (statusWord g.2)])), ?_⟩
      simp [streamWords, groupWords]
  have heq := List.suffix_iff_eq_append.mp hsuffix
  rwa [List.length_map] at heq
end

/-! ### Dispatches along a stream -/

theorem Goes.of_idle {k : Nat} {s t : State} (h : Goes k s t) (hc : s.ctl = .idle) : k = 0 := by
  cases h with
  | refl => rfl
  | step hne => exact absurd hc hne

/-- A receive operation takes no more dispatches than its work and the one that ends it (R175). -/
theorem Goes.le_rxWork {k : Nat} {s t : State} (h : Goes k s t) (hok : MachineOk s) (hrx : inRx s.ctl = true) :
    k ≤ rxWork s + 1 := by
  induction h with
  | refl => exact Nat.zero_le _
  | @step k s t u hne e hgo ih =>
    have hdid := rxTick_did hok.rx.cursor.rd_le
    have hok' := hok.rxTick hrx
    rw [← tick_of_inRx hrx, e] at hdid hok'
    have idle (hc : t.ctl = .idle) : k + 1 ≤ rxWork s + 1 := by
      rw [hgo.of_idle hc]
      omega
    cases hdid with
    | ended hend => exact idle hend.ctl
    | quiet hq hw =>
      have hle := ih hok' (hq.ctl ▸ hrx)
      omega
    | outOfSync hctl _ _ hw =>
      rcases ctlAfterRx_or s.ctl .outOfSync with hc | hc <;> rw [hc] at hctl
      · have hle := ih hok' (hctl ▸ hrx)
        omega
      · exact idle hctl

/-- Some dispatches of the operation lead here, and they have taken the first of the reads. -/
def Reaches (chunks chunks' : List (List Byte)) (s t : State) : Prop :=
  ∃ k c, Goes k s t ∧ chunks = c ++ chunks' ∧ HasRead c s t

theorem Reaches.refl (chunks : List (List Byte)) (s : State) : Reaches chunks chunks s s :=
  ⟨0, [], .refl s, rfl, hasRead_setRx s s.rx⟩

theorem Reaches.trans {a b c : List (List Byte)} {s t u : State} (h : Reaches a b s t) (k : Reaches b c t u) :
    Reaches a c s u := by
  obtain ⟨m, d, hgo, rfl, hread⟩ := h
  obtain ⟨n, e, kgo, rfl, kread⟩ := k
  exact ⟨m + n, d ++ e, hgo.trans kgo, (List.append_assoc d e c).symm, hread.trans kread⟩

/-- Inside RX_DECODE with these words coming and these words of a TLP in the accumulator. -/
structure Receiving (p : Params) (rest : List ReadAnswer) (chunks : List (List Byte)) (ws cur : List Word)
    (s : State) : Prop where
  ok : MachineOk s
  cfg : s.cfg = p
  ctl : s.ctl = .rx false
  upcoming : Upcoming rest chunks ws s
  holds : Holds cur s.rx

section
variable {p : Params} {rest : List ReadAnswer} {chunks : List (List Byte)} {ws cur : List Word} {s : State}

/-- One dispatch that goes on. -/
theorem Receiving.dispatch {c chunks' : List (List Byte)} {ws' cur' : List Word} {t : State}
    (h : Receiving p rest chunks ws cur s) (e : rxTick s = .go t) (hc : chunks = c ++ chunks') (hread : HasRead c s t)
    (hup : Upcoming rest chunks' ws' t) (hold : Holds cur' t.rx) :
    Reaches chunks chunks' s t ∧ Receiving p rest chunks' ws' cur' t := by
  have hrx : inRx s.ctl = true := by rw [h.ctl]; rfl
  have hok := h.ok.rxTick hrx
  rw [e] at hok
  have hgo : Goes 1 s t := .step (by rw [h.ctl]; nofun) ((tick_of_inRx hrx).trans e) (.refl t)
  exact ⟨⟨1, c, hgo, hc, hread⟩, hok, hread.cfg.trans h.cfg, hread.ctl.trans h.ctl, hup, hold⟩

/-- A filler word is skipped (R104, R162). -/
theorem Receiving.filler (h : Receiving p rest chunks (frameValue p.frameOrder 0x55556666 :: ws) cur s)
    (hst : s.rx.st = .awaitingStatus) : ∃ chunks' t, Reaches chunks chunks' s t ∧
      Receiving p rest chunks' ws cur t ∧ t.rx.st = .awaitingStatus := by
  obtain ⟨c, chunks', t, hc, hfetch, hup, hread, hrx⟩ := h.upcoming.fetch h.ok.rx.cursor.rd_le
  have htick : rxTick s = .go t := by
    rw [rxTick_awaiting hst, stepAwait_word hfetch, hread.cfg, h.cfg, frameValue_frameValue]
    exact congrArg Tick.go (takeStatus_filler t)
  obtain ⟨hgo, hrec⟩ := h.dispatch htick hc hread hup (h.holds.congr (by rw [hrx]))
  exact ⟨chunks', t, hgo, hrec, by rw [hrx]; exact hst⟩

/-- The fillers before a status word are skipped (R104, R176). -/
theorem Receiving.fillers (n : Nat) {chunks : List (List Byte)} {s : State}
    (h : Receiving p rest chunks (List.replicate n (frameValue p.frameOrder 0x55556666) ++ ws) cur s)
    (hst : s.rx.st = .awaitingStatus) : ∃ chunks' t, Reaches chunks chunks' s t ∧
      Receiving p rest chunks' ws cur t ∧ t.rx.st = .awaitingStatus := by
  induction n generalizing chunks s with
  | zero => exact ⟨chunks, s, .refl _ _, h, hst⟩
  | succ n ih =>
    rw [List.replicate_succ, List.cons_append] at h
    obtain ⟨chunks1, t, hgo, hrec, hst⟩ := h.filler hst
    obtain ⟨chunks2, u, hgo', hrec', hst'⟩ := ih hrec hst
    exact ⟨chunks2, u, hgo.trans hgo', hrec', hst'⟩

/-- The status word of a group is accepted (R162). -/
theorem Receiving.status {sl : List Slot} (hsl : sl.length = 7)
    (h : Receiving p rest chunks (frameValue p.frameOrder (statusWord sl) :: ws) cur s)
    (hst : s.rx.st = .awaitingStatus) : ∃ chunks' t, Reaches chunks chunks' s t ∧
      Receiving p rest chunks' ws cur t ∧ standsBefore t.rx sl := by
  obtain ⟨c, chunks', t, hc, hfetch, hup, hread, hrx⟩ := h.upcoming.fetch h.ok.rx.cursor.rd_le
  have htick : rxTick s = .go (t.setRx { t.rx with sf := statusWord sl, slot := 0, st := .inData }) := by
    rw [rxTick_awaiting hst, stepAwait_word hfetch, hread.cfg, h.cfg, frameValue_frameValue,
      takeStatus_status (markOf_statusWord hsl)]
  obtain ⟨hgo, hrec⟩ := h.dispatch htick hc (hread.setRx _) (hup.congr rfl rfl)
    (h.holds.congr (by rw [State.setRx_rx, hrx]))
  exact ⟨chunks', _, hgo, hrec, standsBefore_iff.mpr (.inr ⟨inSlots_statusWord hsl rfl rfl, .inl rfl⟩)⟩

/-- After the seventh slot the receiver goes back to AwaitingStatus (R163). -/
theorem Receiving.endGroup (h : Receiving p rest chunks ws cur s) (hs : standsBefore s.rx []) :
    ∃ t, Reaches chunks chunks s t ∧ Receiving p rest chunks ws cur t ∧ t.rx.st = .awaitingStatus := by
  rcases standsBefore_iff.mp hs with ⟨hst, -⟩ | ⟨⟨hslot, -⟩, hst⟩
  · exact ⟨s, .refl _ _, h, hst⟩
  · have htick : rxTick s = .go (Machine.endGroup s) := by
      rw [rxTick_slot (hst.imp_right And.left), consumeSlot_end hslot]
    obtain ⟨hgo, hrec⟩ := h.dispatch htick (List.nil_append _).symm (hasRead_setRx s _) (h.upcoming.congr rfl rfl)
      (h.holds.congr rfl)
    exact ⟨_, hgo, hrec, rfl⟩

/-- A slot's word goes to the accumulator if its class is a TLP class, and is discarded else (R164, R166): the receiver
is in InRemainder only before a NON_TLP slot. -/
theorem slotAppend_standing {r : Receiver} {x : Slot} {sl : List Slot}
    (h : r.st = .inData ∨ (r.st = .inRemainder ∧ nextIsTlp (x :: sl) = false)) (cap : Nat) (q : Word) :
    slotAppend cap x.1 q r = if isTlp x.1 then append cap q r else r := by
  rcases h with hst | ⟨hst, hnon⟩
  · simp [slotAppend, hst]
  · have hnon : isTlp x.1 = false := hnon
    simp [slotAppend, hst, hnon]

/-- One slot of a group (R164-R167). -/
theorem Receiving.slot {x : Slot} {sl : List Slot} (h : Receiving p rest chunks (x.2 :: ws) cur s)
    (hs : standsBefore s.rx (x :: sl)) (hroom : isTlp x.1 = true → cur.length < p.accCap) :
    ∃ chunks' t, Reaches chunks chunks' s t ∧
      Receiving p rest chunks' ws (if isTlp x.1 then cur ++ [x.2] else cur) t ∧ InSlots sl t.rx ∧
      t.rx.st = stateAfterSlot x.1 t.rx := by
  obtain ⟨hin, hst⟩ := (standsBefore_iff.mp hs).resolve_left (fun hnil => nomatch hnil.2)
  obtain ⟨c, chunks', t, hc, hfetch, hup, hread, hrx⟩ := h.upcoming.fetch h.ok.rx.cursor.rd_le
  have htick : rxTick s = .go (t.setRx (takeSlot p.accCap x.1 x.2 t.rx)) := by
    rw [rxTick_slot (hst.imp_right And.left), hin.slotNibble, consumeSlot_word hin.slot_ne hfetch, hread.cfg, h.cfg]
  have happend : slotAppend p.accCap x.1 x.2 t.rx = if isTlp x.1 then append p.accCap x.2 t.rx else t.rx :=
    slotAppend_standing (sl := sl) (by rw [hrx]; exact hst) _ _
  have hold0 : Holds cur t.rx := h.holds.congr (by rw [hrx])
  have hacc : AccOk p t.rx := (h.cfg ▸ h.ok.rx.acc).congr (by rw [hrx])
  have hold : Holds (if isTlp x.1 then cur ++ [x.2] else cur) (slotAppend p.accCap x.1 x.2 t.rx) := by
    rw [happend]
    split
    · exact hold0.append hacc (hroom ‹_›) x.2
    · exact hold0
  have hframe : ((slotAppend p.accCap x.1 x.2 t.rx).sf, (slotAppend p.accCap x.1 x.2 t.rx).slot) =
        (t.rx.sf, t.rx.slot) ∧
      ((slotAppend p.accCap x.1 x.2 t.rx).rxbuf, (slotAppend p.accCap x.1 x.2 t.rx).rd,
        (slotAppend p.accCap x.1 x.2 t.rx).lim) = (t.rx.rxbuf, t.rx.rd, t.rx.lim) := by
    obtain ⟨-, hsf, hslot, hbuf, hrd, hlim, -⟩ := append_frame p.accCap x.2 t.rx
    rcases slotAppend_cases p.accCap x.1 x.2 t.rx with e | e <;> rw [e]
    · exact ⟨rfl, rfl⟩
    · rw [hsf, hslot, hbuf, hrd, hlim]
      exact ⟨rfl, rfl⟩
  obtain ⟨hgo, hrec⟩ := h.dispatch htick hc (hread.setRx _) (hup.congr rfl hframe.2) (hold.congr rfl)
  have hin' : InSlots (x :: sl) (slotAppend p.accCap x.1 x.2 t.rx) :=
    hin.congr (hframe.1.trans (by rw [hrx]))
  exact ⟨chunks', _, hgo, hrec, hin'.advance rfl, rfl⟩

/-- After a slot that is not the last of its TLP the receiver stands before the slots after it (R167). -/
theorem Receiving.standsBefore {x : Slot} {sl : List Slot} (h : Receiving p rest chunks ws cur s)
    (hin : InSlots sl s.rx) (hst : s.rx.st = stateAfterSlot x.1 s.rx) (hx : isLast x.1 = false) :
    standsBefore s.rx sl := by
  refine standsBefore_iff.mpr (.inr ⟨hin, ?_⟩)
  rw [stateAfterSlot, hx, if_neg Bool.false_ne_true, nextDataState, h.holds.ovf, Bool.not_false, Bool.and_true] at hst
  by_cases htlp : isTlp (slotNibble s.rx) = true
  · rw [if_pos htlp] at hst
    exact .inl hst
  · rw [if_neg htlp] at hst
    refine .inr ⟨hst, ?_⟩
    cases sl with
    | nil => rfl
    | cons y sl => rwa [hin.slotNibble, Bool.not_eq_true] at htlp
end

/-! ### One TLP delivered -/

/-- The words of the TLP slots among these (R103, R176). -/
def tlpWords (sl : List Slot) : List Word := (sl.filter fun x => isTlp x.1).map (·.2)

theorem tlpWords_cons (x : Slot) (sl : List Slot) :
    tlpWords (x :: sl) = (if isTlp x.1 then [x.2] else []) ++ tlpWords sl := by
  unfold tlpWords
  rw [List.filter_cons]
  split <;> rfl

section
variable {p : Params} {rest : List ReadAnswer} {chunks : List (List Byte)} {used extra cur : List Word} {s : State}
  {sl slots post : List Slot} {gs : List (Nat × List Slot)} {x : Slot}

/-- The receiver comes to the next slot of the stream, past the end of a group, the fillers and the status word of the
next one where they stand between (R162, R163). -/
theorem Receiving.nextSlot (h : Receiving p rest chunks (used ++ extra) cur s) (hs : Machine.standsBefore s.rx sl)
    (ha : Ahead p.frameOrder used sl gs (x :: slots) post) : ∃ chunks' t sl' gs' used', Reaches chunks chunks' s t ∧
      Receiving p rest chunks' (x.2 :: (used' ++ extra)) cur t ∧ Machine.standsBefore t.rx (x :: sl') ∧
      Ahead p.frameOrder used' sl' gs' slots post := by
  cases sl with
  | cons y sl =>
    obtain ⟨rfl, used', rfl, ha'⟩ := ha.slot
    exact ⟨chunks, s, sl, gs, used', .refl _ _, h, hs, ha'⟩
  | nil =>
    obtain ⟨g, gs', used1, hg, rfl, ha1⟩ := ha.group
    obtain ⟨t1, hgo1, hrec1, hst1⟩ := h.endGroup hs
    rw [List.append_assoc, List.cons_append] at hrec1
    obtain ⟨chunks2, t2, hgo2, hrec2, hst2⟩ := hrec1.fillers g.1 hst1
    obtain ⟨chunks3, t3, hgo3, hrec3, hs3⟩ := hrec2.status hg hst2
    obtain ⟨y, sl', hsl⟩ := List.exists_cons_of_length_eq_add_one hg
    rw [hsl] at ha1 hs3
    obtain ⟨rfl, used', rfl, ha'⟩ := ha1.slot
    exact ⟨chunks3, t3, sl', gs', used', hgo1.trans (hgo2.trans hgo3), hrec3, hs3, ha'⟩

/-- The slots up to the last of a TLP are consumed one by one; then the receiver is in TlpComplete with exactly the
words of the TLP slots in the accumulator, and the slots after the TLP stand in the field (R164-R169, R176). -/
theorem Receiving.tlp {c : Nibble} {w : Word} (hc : isLast c = true) (pre : List Slot)
    (hpre : ∀ x ∈ pre, isLast x.1 = false) {chunks : List (List Byte)} {used cur : List Word} {s : State}
    {sl : List Slot} {gs : List (Nat × List Slot)}
    (h : Receiving p rest chunks (used ++ extra) cur s) (hs : Machine.standsBefore s.rx sl)
    (ha : Ahead p.frameOrder used sl gs (pre ++ [(c, w)]) post)
    (hroom : cur.length + (tlpWords pre).length + 1 ≤ p.accCap) :
    ∃ chunks' t, Reaches chunks chunks' s t ∧ Receiving p rest chunks' extra (cur ++ tlpWords pre ++ [w]) t ∧
      InSlots post t.rx ∧ t.rx.st = .tlpComplete := by
  induction pre generalizing chunks used cur s sl gs with
  | nil =>
    obtain ⟨chunks1, t, sl', gs', used', hgo, hrec, hs', ha'⟩ := h.nextSlot hs ha
    obtain ⟨rfl, rfl⟩ := ha'.done
    obtain ⟨chunks2, u, hgo', hrec', hin, hst⟩ := hrec.slot hs' fun _ => by omega
    rw [if_pos (isTlp_of_isLast hc)] at hrec'
    rw [stateAfterSlot_last hc] at hst
    rw [show cur ++ tlpWords [] ++ [w] = cur ++ [w] by simp [tlpWords]]
    exact ⟨chunks2, u, hgo.trans hgo', hrec', hin, hst⟩
  | cons x pre ih =>
    obtain ⟨chunks1, t, sl', gs', used', hgo, hrec, hs', ha'⟩ := h.nextSlot hs ha
    obtain ⟨chunks2, u, hgo', hrec', hin, hst⟩ := hrec.slot hs' fun _ => by omega
    have hx := hpre x List.mem_cons_self
    have hcur : (if isTlp x.1 then cur ++ [x.2] else cur) = cur ++ if isTlp x.1 then [x.2] else [] := by
      split <;> simp
    rw [hcur] at hrec'
    rw [tlpWords_cons, List.length_append] at hroom
    obtain ⟨chunks3, v, hgo'', hrec'', hin', hst'⟩ := ih (fun y hy => hpre y (List.mem_cons_of_mem _ hy)) hrec'
      (hrec'.standsBefore hin hst hx) ha' (by rw [List.length_append]; omega)
    refine ⟨chunks3, v, hgo.trans (hgo'.trans hgo''), ?_, hin', hst'⟩
    rwa [tlpWords_cons, ← List.append_assoc]

/-- The state once the TLP in the accumulator has been delivered as Complete (R170). -/
def deliveredState (ws : List Word) (s : State) : State :=
  { s with
    rx := { accReset s.rx with st := stateAfterComplete s.rx }, replies := s.replies ++ [.complete ws], ctl := .idle }

/-- A TLP with its declared total is delivered as Complete with exactly its words (R170). -/
theorem Receiving.complete {ws' ws : List Word} (h : Receiving p rest chunks ws' ws s) (hst : s.rx.st = .tlpComplete)
    {i pay d : Nat} {hw : HdrWords} (hlen : tlpLen ws = .len i hw pay d ws.length) :
    Goes 1 s (deliveredState ws s) := by
  have hrx : inRx s.ctl = true := by rw [h.ctl]; rfl
  refine .step (by rw [h.ctl]; nofun) ?_ (.refl _)
  rw [tick_of_inRx hrx, rxTick, hst]
  show Tick.go (stepComplete s) = _
  rw [stepComplete, completeReply_complete (h.holds.corruptReason hlen), h.holds.words, emitRx_complete]
  rfl
end

/-- RX_DECODE leads to where its dispatches lead (R160, R175). -/
theorem exec_rxDecode_of_goes {k : Nat} {s t : State} (hok : MachineOk s) (hc : s.ctl = .idle)
    (h : Goes k (s.setCtl (.rx false)) t) (hidle : t.ctl = .idle) : exec .rxDecode s = .next t := by
  have hle := h.le_rxWork (hok.startRx hc false) rfl
  have hlt := rxWork_lt_dispatchBound (s.setCtl (.rx false))
  exact (withCursor_of_cursorOk hok.cursorOk _).trans (congrArg Host.Outcome.next (runOp_of_goes h hidle (by omega)))

/-- Where RX_DECODE leaves the machine when it has delivered a TLP: the reads that are left, the words that are left,
an empty accumulator, and the slots that are left in the group (R170, R171, R176). -/
structure Delivered (rest : List ReadAnswer) (chunks : List (List Byte)) (extra : List Word) (post : List Slot)
    (ws : List Word) (s t : State) : Prop where
  eq : t = { s with
    rx := t.rx, rxFeed := t.rxFeed, trace := t.trace, replies := s.replies ++ [.complete ws] }
  ok : MachineOk t
  upcoming : Upcoming rest chunks extra t
  acc : t.rx.n = 0 ∧ t.rx.pfx = 0 ∧ t.rx.exp = .unknown ∧ t.rx.ovf = false
  st : t.rx.st = if nextIsTlp post then .inData else .inRemainder
  stands : standsBefore t.rx post

/-- One RX_DECODE delivers the next TLP of a stream (R176). -/
theorem exec_rxDecode_delivers {rest : List ReadAnswer} {chunks : List (List Byte)} {used extra : List Word} {s : State}
    {sl pre post : List Slot} {gs : List (Nat × List Slot)} {c : Nibble} {w : Word} {i pay d : Nat} {hw : HdrWords}
    (hok : MachineOk s) (hc : s.ctl = .idle) (hs : standsBefore s.rx sl) (hn : s.rx.n = 0)
    (hup : Upcoming rest chunks (used ++ extra) s) (ha : Ahead s.cfg.frameOrder used sl gs (pre ++ [(c, w)]) post)
    (hpre : ∀ x ∈ pre, isLast x.1 = false) (hlast : isLast c = true)
    (hcap : (tlpWords pre ++ [w]).length ≤ s.cfg.accCap)
    (hlen : tlpLen (tlpWords pre ++ [w]) = .len i hw pay d (tlpWords pre ++ [w]).length) :
    ∃ taken left t, exec .rxDecode s = .next t ∧ chunks = taken ++ left ∧
      t.trace = s.trace ++ taken.map (fun b => .didRead (.bytes b)) ∧
      Delivered rest left extra post (tlpWords pre ++ [w]) s t := by
  have hstart : Receiving s.cfg rest chunks (used ++ extra) [] (s.setCtl (.rx false)) :=
    ⟨hok.startRx hc false, rfl, rfl, hup.congr rfl rfl, holds_nil hok.rx.acc hn⟩
  obtain ⟨left, t, ⟨k, taken, hgo, hchunks, hread⟩, hrec, hin, hst⟩ := hstart.tlp hlast pre hpre hs ha (by
    rw [List.length_append, List.length_singleton] at hcap
    rw [List.length_nil]
    omega)
  rw [List.nil_append] at hrec
  have hexec := exec_rxDecode_of_goes hok hc (hgo.trans (hrec.complete hst hlen)) rfl
  have hnext : isTlp (slotNibble t.rx) = nextIsTlp post := hin.isTlp_eq hrec.ok.rx.field (by rw [hst]; rfl)
  have hafter : stateAfterComplete t.rx = if nextIsTlp post then .inData else .inRemainder := by
    rw [stateAfterComplete, hnext]
  refine ⟨taken, left, deliveredState (tlpWords pre ++ [w]) t, hexec, hchunks, ?_, ?_, ?_, ?_, ?_, ?_, ?_⟩
  · rw [hread]
    rfl
  · rw [hread, hc]
    rfl
  · have hrun := (hok.startRx hc false).runOp
    rwa [withCursor_next hexec]
  · exact hrec.upcoming.congr rfl rfl
  · exact ⟨rfl, rfl, rfl, rfl⟩
  · exact hafter
  · refine standsBefore_iff.mpr (.inr ⟨hin.congr rfl, ?_⟩)
    show stateAfterComplete t.rx = .inData ∨ stateAfterComplete t.rx = .inRemainder ∧ _
    rw [hafter]
    cases nextIsTlp post
    · exact .inr ⟨rfl, rfl⟩
    · exact .inl rfl

/-! ### The TLPs of a stream -/

/-- A TLP whose words end at the last of the words coming takes every read, if the last read is needed for it. -/
theorem left_eq_nil {buf used : List Word} {taken left : List (List Byte)} {more extra : List Word}
    (hwords : buf ++ (taken ++ left).flatMap wordsOf = used ++ extra) (hmore : more ++ left.flatMap wordsOf = extra)
    (hneed : taken ++ left = [] ∨ (buf ++ (taken ++ left).dropLast.flatMap wordsOf).length < used.length) :
    left = [] := by
  rcases hneed with hnil | hneed
  · exact (List.append_eq_nil_iff.mp hnil).2
  · by_contra hne
    rw [← hmore] at hwords
    have hlen := congrArg List.length hwords
    rw [List.dropLast_append_of_ne_nil hne] at hneed
    simp only [List.flatMap_append, List.length_append] at hlen hneed
    omega

/-- The first of the TLPs of these slots, and the slots after it. -/
theorem slotTlps_cons {cur ws : List Word} {tlps : List (List Word)} {sl : List Slot}
    (h : slotTlps cur sl = ws :: tlps) : ∃ pre c w post, sl = pre ++ (c, w) :: post ∧
      (∀ x ∈ pre, isLast x.1 = false) ∧ isLast c = true ∧ ws = cur ++ (tlpWords pre ++ [w]) ∧
      slotTlps [] post = tlps := by
  induction sl generalizing cur with
  | nil => cases h
  | cons x rest ih =>
    rw [slotTlps] at h
    split at h
    · rename_i hx
      obtain ⟨rfl, rfl⟩ := List.cons_eq_cons.mp h
      exact ⟨[], x.1, x.2, rest, rfl, nofun, hx, rfl, rfl⟩
    · rename_i hx
      obtain ⟨pre, c, w, post, rfl, hpre, hc, rfl, hpost⟩ := ih h
      refine ⟨x :: pre, c, w, post, rfl, ?_, hc, ?_, hpost⟩
      · simpa [hx] using hpre
      · rw [tlpWords_cons]
        split <;> simp

/-- The groups that a TLP of a stream needs, and those after it. -/
theorem groups_split {first : List Slot} {gs : List (Nat × List Slot)} {slots post : List Slot}
    (hsized : ∀ g ∈ gs, g.2.length = 7) (hslots : first ++ gs.flatMap (·.2) = slots ++ post) :
    ∃ gs1 gs2 post1, gs = gs1 ++ gs2 ∧ post = post1 ++ gs2.flatMap (·.2) ∧
      first ++ gs1.flatMap (·.2) = slots ++ post1 ∧ (gs1 = [] ∨ post1.length < 7) := by
  induction gs generalizing first with
  | nil => exact ⟨[], [], post, rfl, by simp, by simpa using hslots, .inl rfl⟩
  | cons g gs ih =>
    rcases Nat.lt_or_ge first.length slots.length with hlt | hge
    · rw [List.flatMap_cons, ← List.append_assoc] at hslots
      obtain ⟨gs1, gs2, post1, rfl, hpost, hslots1, hlast⟩ :=
        ih (fun g' hg' => hsized g' (List.mem_cons_of_mem _ hg')) hslots
      refine ⟨g :: gs1, gs2, post1, rfl, hpost, by simpa using hslots1, .inr ?_⟩
      rcases hlast with rfl | hlast
      · have hg := hsized g List.mem_cons_self
        have hlen := congrArg List.length hslots1
        simp only [List.flatMap_nil, List.append_nil, List.length_append] at hlen
        omega
      · exact hlast
    · obtain ⟨post1, hpost1⟩ : slots <+: first :=
        List.prefix_of_prefix_length_le ⟨post, hslots.symm⟩ (List.prefix_append _ _) hge
      refine ⟨[], g :: gs, post1, rfl, ?_, by simp [hpost1], .inl rfl⟩
      rw [← hpost1, List.append_assoc] at hslots
      exact (List.append_cancel_left hslots).symm

theorem streamWords_append (o : FrameOrder) (gs gs' : List (Nat × List Slot)) :
    streamWords o (gs ++ gs') = streamWords o gs ++ streamWords o gs' := List.flatMap_append

/-- A TLP the receiver can deliver as Complete (R170, R176). -/
def Deliverable (p : Params) (ws : List Word) : Prop :=
  ws.length ≤ p.accCap ∧ ∃ i hw pay d, tlpLen ws = .len i hw pay d ws.length

theorem decodeTimes_succ {s t : State} (h : exec .rxDecode s = .next t) (n : Nat) :
    decodeTimes (n + 1) s = decodeTimes n t := by
  rw [decodeTimes, h]

/-- One RX_DECODE a TLP delivers the TLPs of a stream, from any place between two of them (R176). -/
theorem decodeTimes_delivers {rest : List ReadAnswer} {extra : List Word} (tlps : List (List Word))
    {chunks : List (List Byte)} {s : State} {sl : List Slot} {gs : List (Nat × List Slot)} (hok : MachineOk s)
    (hc : s.ctl = .idle) (hs : standsBefore s.rx sl) (hn : s.rx.n = 0) (hsized : ∀ g ∈ gs, g.2.length = 7)
    (hup : Upcoming rest chunks (sl.map (·.2) ++ streamWords s.cfg.frameOrder gs ++ extra) s)
    (htlps : slotTlps [] (sl ++ gs.flatMap (·.2)) = tlps) (hgood : ∀ ws ∈ tlps, Deliverable s.cfg ws) :
    (decodeTimes tlps.length s).replies = s.replies ++ tlps.map .complete ∧
      (decodeTimes tlps.length s).diag = s.diag := by
  induction tlps generalizing chunks s sl gs with
  | nil => exact ⟨(List.append_nil _).symm, rfl⟩
  | cons ws tlps ih =>
    obtain ⟨pre, c, w, post, hslots, hpre, hlast, rfl, hpost⟩ := slotTlps_cons htlps
    rw [show pre ++ (c, w) :: post = (pre ++ [(c, w)]) ++ post by simp] at hslots
    obtain ⟨gs1, gs2, post1, rfl, rfl, hslots1, hlast1⟩ := groups_split hsized hslots
    obtain ⟨used, ha⟩ : ∃ used, Ahead s.cfg.frameOrder used sl gs1 (pre ++ [(c, w)]) post1 :=
      ⟨_, ahead_of_slots _ (fun g hg => hsized g (List.mem_append_left _ hg)) hslots1 hlast1⟩
    have hwords : sl.map (·.2) ++ streamWords s.cfg.frameOrder (gs1 ++ gs2) ++ extra =
        used ++ (post1.map (·.2) ++ streamWords s.cfg.frameOrder gs2 ++ extra) := by
      rw [streamWords_append, ← List.append_assoc (sl.map _), ← ha.words]
      simp only [List.append_assoc]
    rw [hwords] at hup
    obtain ⟨hcap, i, hw, pay, d, hlen⟩ := hgood _ List.mem_cons_self
    obtain ⟨taken, left, t, hexec, -, -, hdel⟩ := exec_rxDecode_delivers hok hc hs hn hup ha hpre hlast hcap hlen
    have hcfg : t.cfg = s.cfg := by rw [hdel.eq]
    have hctl : t.ctl = .idle := by rw [hdel.eq]; exact hc
    have hreplies : t.replies = s.replies ++ [.complete (tlpWords pre ++ [w])] := by rw [hdel.eq]
    have hdiag : t.diag = s.diag := by rw [hdel.eq]
    obtain ⟨hrep, hdg⟩ := ih hdel.ok hctl hdel.stands hdel.acc.1 (fun g hg => hsized g (List.mem_append_right _ hg))
      (hcfg ▸ hdel.upcoming) hpost (fun ws hws => hcfg ▸ hgood ws (List.mem_cons_of_mem _ hws))
    rw [List.length_cons, decodeTimes_succ hexec, hrep, hdg, hreplies, hdiag]
    exact ⟨by simp, rfl⟩

/-- Settles O29: one RX_DECODE consumes the stream up to the end of its TLP and delivers it; the slots and the words
it leaves are those with which the next RX_DECODE begins. -/
theorem rxDecodeDeliversTlp : Obligations.RxDecodeDeliversTlp := by
  constructor
  · intro s first gs pre c w post chunks rest extra i hw pay d hinv hc hs hn hsized hslots hpre hlast hend ws all used
      hcap hlen hchunks hwords hneed hfeed
    have hok := (machineOk_iff s).mpr hinv
    have hslots : first ++ gs.flatMap (·.2) = (pre ++ [(c, w)]) ++ post := by simpa using hslots
    have ha := ahead_of_slots s.cfg.frameOrder hsized hslots hend
    obtain ⟨taken, left, t, hexec, rfl, htrace, hdel⟩ :=
      exec_rxDecode_delivers hok hc hs hn ⟨hchunks, hfeed, hwords⟩ ha hpre hlast hcap hlen
    obtain rfl := left_eq_nil hwords hdel.upcoming.words hneed
    obtain ⟨hn', hpfx, hexp, hovf⟩ := hdel.acc
    refine ⟨t, hexec, ?_, hn', hpfx, hexp, hovf, hdel.st, hdel.stands, ?_⟩
    · have hrest : t.rxFeed = rest := hdel.upcoming.feed
      rw [List.append_nil, ← hrest, ← htrace]
      exact hdel.eq
    · simpa using hdel.upcoming.words
  · intro s gs chunks rest extra hinv hc hst hn hsized hchunks hwords hfeed tlps hgood
    exact decodeTimes_delivers (sl := []) tlps ((machineOk_iff s).mpr hinv) hc (.inl ⟨hst, rfl⟩) hn hsized
      ⟨hchunks, hfeed, hwords⟩ rfl hgood

end Sys2Proof.Machine
end

section
/-! SUPPORT. The proofs of the family of spec/41_tlp_codec.md: the length function by the bits of a word, the rows of a
leader word, prefixes and TLP_DECODE, the bytes TLP_ENCODE writes and the round trip, TLP_SEND run to its outcome, the
fields of a header, and what the codec and the register path leave of the receiver. -/

namespace Sys2Proof.Machine

/-! ## The length function -/

/-! ### By the bits of the word -/

/-- The payload length that a Length field says in the low bits of a number: 0 means 1024 (R119). -/
def lengthBits (n : Nat) : Nat := if n % 1024 = 0 then 1024 else n % 1024

/-- The value of the length function by Fmt, the Length field's number of dwords and the digest bit (R221). -/
def hdrLenBits (f len td : Nat) : HdrLen :=
  let pay := if f = 2 ∨ f = 3 then len else 0
  if f = 4 then .prefixWord
  else if 4 < f then .invalid
  else if f = 0 ∨ f = 2 then .header .dw3 pay td (3 + pay + td)
  else .header .dw4 pay td (4 + pay + td)

/-- The length function reads Fmt, TD and Length alone (R221): its tests of the bits of Fmt, code by code. -/
theorem hdrLen_eq_bits (w : Word) :
    hdrLen w = hdrLenBits (w.toNat / 2 ^ 29) (lengthBits w.toNat) (w.toNat / 2 ^ 15 % 2) := by
  rw [lengthBits, ← paylen_eq, ← tdOf_eq, ← fmtOf_toNat, hdrLen]
  simp only [payOf]
  generalize fmtOf w = f
  have hcodes : ∀ f : BitVec 3, f = 0 ∨ f = 1 ∨ f = 2 ∨ f = 3 ∨ f = 4 ∨ f = 5 ∨ f = 6 ∨ f = 7 := by
    decide
  obtain rfl | rfl | rfl | rfl | rfl | rfl | rfl | rfl := hcodes f
  all_goals rfl

/-- The length function of a word whose upper bits are a row's code, Fmt first, above the row's free bits, which
hold TD and Length (R110-R112). -/
theorem hdrLen_append {m n : Nat} (c : BitVec m) (rest : BitVec n) (h16 : 16 ≤ n) (h29 : n ≤ 29) {w : Word}
    (hw : w.toNat = (c ++ rest).toNat) :
    hdrLen w = hdrLenBits (c.toNat / 2 ^ (29 - n)) (lengthBits rest.toNat) (rest.toNat / 2 ^ 15 % 2) := by
  have hsum : w.toNat = c.toNat * 2 ^ n + rest.toNat := by
    rw [hw, BitVec.toNat_append, ← Nat.shiftLeft_add_eq_or_of_lt rest.isLt, Nat.shiftLeft_eq]
  have hfmt : w.toNat / 2 ^ 29 = c.toNat / 2 ^ (29 - n) := by
    have hpow : 2 ^ 29 = 2 ^ n * 2 ^ (29 - n) := by rw [← Nat.pow_add, Nat.add_sub_cancel' h29]
    rw [hsum, hpow, ← Nat.div_div_eq_div_mul, Nat.mul_comm, Nat.mul_add_div (Nat.two_pow_pos n),
      Nat.div_eq_of_lt rest.isLt, Nat.add_zero]
  have hlow : w.toNat % 2 ^ 16 = rest.toNat % 2 ^ 16 := by
    obtain ⟨k, rfl⟩ := Nat.exists_eq_add_of_le h16
    rw [hsum, Nat.pow_add, Nat.mul_left_comm, Nat.mul_add_mod]
  rw [hdrLen_eq_bits, hfmt, lengthBits, lengthBits, show w.toNat % 1024 = rest.toNat % 1024 by omega,
    show w.toNat / 2 ^ 15 % 2 = rest.toNat / 2 ^ 15 % 2 by omega]

/-- A Fmt below 4 is a header's, with its word count in bytes by the code (R111, R224). -/
theorem hdrLenBits_header {f len td : Nat} (h : f < 4) :
    ∃ hw pay, hdrLenBits f len td = .header hw pay td (hdrCount hw + pay + td) ∧
      (if f = 0 ∨ f = 2 then 12 else 16) = 4 * hdrCount hw := by
  simp only [hdrLenBits, if_neg (show f ≠ 4 by omega), if_neg (show ¬ 4 < f by omega)]
  split
  · exact ⟨.dw3, _, rfl, rfl⟩
  · exact ⟨.dw4, _, rfl, rfl⟩

/-- Settles O30: TLP_HDRLEN delivers the length function's value. -/
theorem hdrlenResult : Obligations.HdrlenResult := fun w s =>
  congrArg (fun r => Host.Outcome.next (deliver (.hdrLen r) s)) (hdrLen_eq_bits w)

/-! ### The rows of a leader word -/

/-- With no RX_DECODE in progress a leader word ends with its reply (R221; log entry 10). -/
theorem leader_of_not_inRx {s : State} (hc : inRx s.ctl = false) (w : Word) (r : Reply) :
    leader w r s = deliver r s := by
  unfold leader
  split
  · rename_i h
    rw [h] at hc
    cases hc
  · rfl

/-- Settles O31: row by row, the length function's value for its Fmt. -/
theorem fmtRowsResult : Obligations.FmtRowsResult := by
  intro rest s hc td len gives
  have row (f : BitVec 3) : leaderFmt (f ++ rest) s = gives (hdrLenBits f.toNat len td) := by
    have hlen : hdrLen (f ++ rest) = hdrLenBits f.toNat len td := by
      rw [hdrLen_append f rest (by decide) (by decide) rfl, Nat.sub_self, Nat.pow_zero, Nat.div_one]
      rfl
    rw [leaderFmt, leader_of_not_inRx hc, hlen]
    rfl
  exact ⟨row 0b000, row 0b001, row 0b010, row 0b011, row 0b100, row 0b101, row 0b110, row 0b111⟩

/-- Settles O33: row by row, the length function's value for the upper bits of the row's code, and the row's view. -/
theorem typeRowsResult : Obligations.TypeRowsResult := by
  intro s hc gives
  have row {m n : Nat} (c : BitVec m) (rest : BitVec n) (v : View) (h16 : 16 ≤ n) (h29 : n ≤ 29) {w : Word}
      (hw : w.toNat = (c ++ rest).toNat) : leaderType v w s =
        gives v (hdrLenBits (c.toNat / 2 ^ (29 - n)) (lengthBits rest.toNat) (rest.toNat / 2 ^ 15 % 2)) := by
    rw [leaderType, leader_of_not_inRx hc, hdrLen_append c rest h16 h29 hw]
    rfl
  refine ⟨fun rest => ?_, fun rest => ?_, fun rest => ?_⟩
  · have byte (c : Byte) (v : View) := row c rest v (by decide) (by decide) (w := c ++ rest) rfl
    exact ⟨⟨byte 0x00 _, byte 0x20 _, byte 0x01 _, byte 0x21 _, byte 0x40 _, byte 0x60 _⟩,
      ⟨byte 0x02 _, byte 0x42 _⟩, ⟨byte 0x04 _, byte 0x44 _, byte 0x05 _, byte 0x45 _⟩,
      ⟨byte 0x0A _, byte 0x4A _, byte 0x0B _, byte 0x4B _⟩,
      ⟨byte 0x4C _, byte 0x6C _, byte 0x4D _, byte 0x6D _, byte 0x4E _, byte 0x6E _⟩⟩
  · have code (c : BitVec 5) := row c rest .message (by decide) (by decide) (w := c ++ rest) rfl
    exact ⟨code 0b00110, code 0b01110⟩
  · have code (c : BitVec 4) := row c rest .prefixView (by decide) (by decide) (w := c ++ rest) rfl
    exact ⟨code 0x8, code 0x9⟩

/-- Inside RX_DECODE a leader word's type makes no difference (R240-R246, R169; log entry 10). -/
theorem leaderType_rx {s : State} {b : Bool} (hc : s.ctl = .rx b) (v : View) (w : Word) :
    leaderType v w s = leaderFmt w s := by
  simp only [leaderType, leaderFmt, leader, hc]

/-- Settles O34: row by row, the row's code cut into its Fmt and the bits below. -/
theorem typeRowsInReceiver : Obligations.TypeRowsInReceiver := by
  intro s b hc
  have row {m n : Nat} (f : BitVec 3) (c : BitVec m) (rest : BitVec n) {v : View} {w w' : Word}
      (hw : w.toNat = (f ++ c ++ rest).toNat) (hw' : w'.toNat = (f ++ (c ++ rest)).toNat) :
      leaderType v w s = leaderFmt w' s := by
    have hww : w = w' := BitVec.eq_of_toNat_eq (by rw [hw, hw', BitVec.append_assoc, BitVec.toNat_cast])
    rw [leaderType_rx hc, hww]
  refine ⟨fun rest => ?_, fun rest => ?_, fun rest => ?_⟩
  · have code (f : BitVec 3) (c : BitVec 5) (v : View) :
        leaderType v (f ++ c ++ rest) s = leaderFmt (f ++ (c ++ rest)) s := row f c rest rfl rfl
    exact ⟨⟨code 0 0 _, code 1 0 _, code 0 1 _, code 1 1 _, code 2 0 _, code 3 0 _⟩, ⟨code 0 2 _, code 2 2 _⟩,
      ⟨code 0 4 _, code 2 4 _, code 0 5 _, code 2 5 _⟩, ⟨code 0 10 _, code 2 10 _, code 0 11 _, code 2 11 _⟩,
      ⟨code 2 12 _, code 3 12 _, code 2 13 _, code 3 13 _, code 2 14 _, code 3 14 _⟩⟩
  · have code (f : BitVec 3) : leaderType .message (f ++ 0b10#2 ++ rest) s = leaderFmt (f ++ (0b10#2 ++ rest)) s :=
      row f _ rest rfl rfl
    exact ⟨code 1, code 3⟩
  · have code (c : BitVec 1) :
        leaderType .prefixView (0b100#3 ++ c ++ rest) s = leaderFmt (0b100#3 ++ (c ++ rest)) s := row _ c rest rfl rfl
    exact ⟨code 0, code 1⟩

/-! ## Prefixes and TLP_DECODE -/

/-- Prefix words only move the index of what follows them (R222, R229). -/
theorem tlpLenFrom_prefixes {pre : List Word} (h : ∀ p ∈ pre, p.toNat / 2 ^ 29 = 4) (i : Nat) (ws : List Word) :
    tlpLenFrom i (pre ++ ws) = tlpLenFrom (i + pre.length) ws := by
  induction pre generalizing i with
  | nil => rfl
  | cons p pre ih =>
    obtain ⟨hp, hpre⟩ := List.forall_mem_cons.mp h
    rw [List.cons_append, tlpLenFrom, hdrLen_prefix hp, List.length_cons, Nat.add_comm pre.length, ← Nat.add_assoc]
    exact ih hpre (i + 1)

theorem tlpLen_prefixes {pre : List Word} (h : ∀ p ∈ pre, p.toNat / 2 ^ 29 = 4) (ws : List Word) :
    tlpLen (pre ++ ws) = tlpLenFrom pre.length ws :=
  (tlpLenFrom_prefixes h 0 ws).trans (by rw [Nat.zero_add])

theorem tlpLenFrom_header {w : Word} {hw : HdrWords} {pay d t : Nat} (h : hdrLen w = .header hw pay d t) (i : Nat)
    (rest : List Word) : tlpLenFrom i (w :: rest) = .len i hw pay d (i + t) := by
  rw [tlpLenFrom, h]

theorem tlpLenFrom_invalid {w : Word} (h : hdrLen w = .invalid) (i : Nat) (rest : List Word) :
    tlpLenFrom i (w :: rest) = .bad i := by
  rw [tlpLenFrom, h]

/-- Settles O35: the prefixes move the index, and the header word ends the scan. -/
theorem prefixLaw : Obligations.PrefixLaw := fun _ _ rest _ _ _ _ hpre hw =>
  ⟨fun p hp => hdrLen_prefix (hpre p hp), (tlpLen_prefixes hpre _).trans (tlpLenFrom_header hw _ rest)⟩

/-- The words a header needs from its own first word on: its declared total, or under `HEADER` the header only
(R223). -/
def headerNeed (c : DecodeCheck) (hw : HdrWords) (t : Nat) : Nat :=
  match c with
  | .total => t
  | .header => hdrCount hw

theorem decodeNeed_add (c : DecodeCheck) (i : Nat) (hw : HdrWords) (t : Nat) :
    decodeNeed c i hw (i + t) = i + headerNeed c hw t := by
  cases c <;> rfl

/-- TLP_DECODE of prefixes and a header: what is available from the header on against what it needs (R223). -/
theorem tlpDecode_header {pre : List Word} (hpre : ∀ p ∈ pre, p.toNat / 2 ^ 29 = 4) {w : Word} {hw : HdrWords}
    {pay d t : Nat} (h : hdrLen w = .header hw pay d t) (c : DecodeCheck) (rest : List Word) :
    tlpDecode c (pre ++ w :: rest) =
      if 1 + rest.length < headerNeed c hw t then .error .truncated
      else .ok {
        h := headerOfWords hw (w :: rest), pfx := pre.length, poff := pre.length + hdrCount hw, plen := pay } := by
  have hshort : (pre ++ w :: rest).length < decodeNeed c pre.length hw (pre.length + t) ↔
      1 + rest.length < headerNeed c hw t := by
    rw [decodeNeed_add, List.length_append, List.length_cons]
    omega
  simp only [tlpDecode, tlpLen_prefixes hpre, tlpLenFrom_header h, hshort, List.drop_left]

theorem headerOfWords_cons (hw : HdrWords) (w : Word) (rest : List Word) :
    headerOfWords hw (w :: rest) = {
      w0 := w, w1 := rest.getD 0 0, w2 := rest.getD 1 0
      w3 := if hw = .dw4 then rest.getD 2 0 else 0, hw := hw } := by
  cases hw <;> rfl

/-- Settles O36: by the word that follows the prefixes. -/
theorem tlpDecodeResult : Obligations.TlpDecodeResult := by
  intro pre s hpre gives
  have hexec {ws : List Word} {r : Except CodecStatus Decoded} (h : tlpDecode s.cfg.decodeCheck ws = r) :
      exec (.tlpDecode ws) s = gives r := congrArg (fun r => Host.Outcome.next (deliver (.decoded r) s)) h
  refine ⟨hexec ?_, fun w rest hw => hexec ?_, fun w rest hw pay d t h => ?_⟩
  · have hlen := tlpLen_prefixes hpre []
    rw [List.append_nil] at hlen
    rw [tlpDecode, hlen, tlpLenFrom]
  · rw [tlpDecode, tlpLen_prefixes hpre, tlpLenFrom_invalid (hdrLen_invalid hw)]
  · refine (hexec (tlpDecode_header hpre h _ rest)).trans ?_
    rw [headerOfWords_cons, apply_ite gives]
    cases s.cfg.decodeCheck <;> rfl

/-! ## TLP_ENCODE and the round trip -/

/-! ### Words and their bytes -/

theorem bytesOfWords_length (ws : List Word) : (bytesOfWords ws).length = 4 * ws.length := by
  induction ws with
  | nil => rfl
  | cons w ws ih =>
    rw [bytesOfWords, List.flatMap_cons, List.length_append, ← bytesOfWords, ih, List.length_cons]
    exact (Nat.add_comm _ _).trans (Nat.mul_succ 4 _).symm

/-- Byte `a` of the wire bytes of words is byte `a mod 4` of word `a / 4` (R13). -/
theorem bytesOfWords_getD (ws : List Word) : ∀ a < 4 * ws.length,
    (bytesOfWords ws).getD a 0 = byteOf (ws.getD (a / 4) 0) (a % 4) := by
  induction ws with
  | nil => nofun
  | cons w ws ih =>
    intro a ha
    match a with
    | 0 | 1 | 2 | 3 => rfl
    | a + 4 =>
      rw [Nat.add_div_right a (by decide), Nat.add_mod_right]
      exact ih a (by rw [List.length_cons] at ha; omega)

/-- The words read back from their wire bytes (R13, R80). -/
theorem wordsOf_bytesOfWords (ws : List Word) : wordsOf (bytesOfWords ws) = ws := by
  induction ws with
  | nil => rfl
  | cons w ws ih =>
    show be32 (byteOf w 0) (byteOf w 1) (byteOf w 2) (byteOf w 3) :: wordsOf (bytesOfWords ws) = w :: ws
    rw [be32_byteOf, ih]

/-! ### The destination of TLP_ENCODE -/

/-- The words of a header value in order. -/
def Header.words (h : Header) : List Word := [h.w0, h.w1, h.w2, h.w3]

theorem headerSpan_length (h : Header) (hw : HdrWords) : (headerSpan h hw).length = hdrCount hw := by
  cases hw <;> rfl

theorem headerSpan_eq_take (h : Header) (hw : HdrWords) :
    headerSpan h hw = (Header.words h).take (hdrCount hw) := by
  cases hw <;> rfl

theorem headerSpan_bytes_length (h : Header) (hw : HdrWords) :
    (bytesOfWords (headerSpan h hw)).length = 4 * hdrCount hw := by
  rw [bytesOfWords_length, headerSpan_length]

/-- A refused TLP_ENCODE changes no byte (R224, R346). -/
theorem exec_tlpEncode_error {h : Header} {cap : Nat} {e : CodecStatus} (he : tlpEncode h cap = .error e) (s : State) :
    exec (.tlpEncode h cap) s = .next (deliver (.encoded (.error e)) s) := by
  show execTlpEncode h cap s = _
  rw [execTlpEncode, he]

/-- The state after a TLP_ENCODE that writes these bytes (R224). -/
def encodedState (bs : List Byte) (s : State) : State :=
  deliver (.encoded (.ok bs.length)) { s with hostMem := Memory.store s.hostMem 0 bs }

theorem exec_tlpEncode_ok {h : Header} {cap : Nat} {bs : List Byte} (he : tlpEncode h cap = .ok bs) (s : State) :
    exec (.tlpEncode h cap) s = .next (encodedState bs s) := by
  show execTlpEncode h cap s = _
  rw [execTlpEncode, he]
  rfl

/-- The bytes written stand from address 0 on, and every other byte is as before (R224). -/
theorem hostByte_encodedState (bs : List Byte) (s : State) (a : Nat) :
    hostByte (encodedState bs s) a = if a < bs.length then bs.getD a 0 else hostByte s a := by
  show Memory.read (Memory.store s.hostMem 0 bs) a = _
  rw [Memory.read_store, Nat.zero_add]
  simp only [Nat.zero_le, true_and, Nat.sub_zero]
  rfl

/-- The bytes written, read back in order. -/
theorem map_hostByte_encodedState (bs : List Byte) (s : State) :
    (List.range bs.length).map (hostByte (encodedState bs s)) = bs := by
  refine List.ext_getElem (by simp) fun a _ ha => ?_
  rw [List.getElem_map, List.getElem_range, hostByte_encodedState, if_pos ha, List.getD_eq_getElem _ _ ha]

/-- TLP_ENCODE of a header: a destination too short for it is refused, else its words are written (R224). -/
theorem tlpEncode_header {h : Header} {hw : HdrWords} {pay d t : Nat} (hlen : hdrLen h.w0 = .header hw pay d t)
    (cap : Nat) : tlpEncode h cap =
      if cap < 4 * hdrCount hw then .error .bufferTooSmall else .ok (bytesOfWords (headerSpan h hw)) := by
  rw [tlpEncode, hlen]

theorem hdrLen_of_four_le {w : Word} (h : 4 ≤ w.toNat / 2 ^ 29) : hdrLen w = .prefixWord ∨ hdrLen w = .invalid :=
  h.eq_or_lt.imp (fun h4 => hdrLen_prefix h4.symm) hdrLen_invalid

theorem tlpEncode_invalidFormat {h : Header} (hf : 4 ≤ h.w0.toNat / 2 ^ 29) (cap : Nat) :
    tlpEncode h cap = .error .invalidFormat := by
  rcases hdrLen_of_four_le hf with e | e <;> rw [tlpEncode, e]

/-- Byte `a` of a header's span is byte `a mod 4` of its word `a / 4`, by the bits of that word (R13). -/
theorem headerSpan_byte (h : Header) {hw : HdrWords} {a : Nat} (ha : a < 4 * hdrCount hw) :
    (bytesOfWords (headerSpan h hw)).getD a 0 =
      BitVec.ofNat 8 (((Header.words h).getD (a / 4) 0).toNat / 2 ^ (24 - 8 * (a % 4))) := by
  have hword : (headerSpan h hw).getD (a / 4) 0 = (Header.words h).getD (a / 4) 0 := by
    rw [headerSpan_eq_take, List.getD_eq_getElem?_getD, List.getD_eq_getElem?_getD,
      List.getElem?_take_of_lt (by omega)]
  rw [bytesOfWords_getD _ _ (by rwa [headerSpan_length]), hword]
  refine BitVec.eq_of_toNat_eq ?_
  rw [byteOf, BitVec.extractLsb'_toNat, BitVec.toNat_ofNat, Nat.shiftRight_eq_div_pow]

/-- Settles O37: refused by the format, refused by the room, or the header's span written. -/
theorem tlpEncodeResult : Obligations.TlpEncodeResult := by
  intro h cap s f bytes
  by_cases hf : 4 ≤ f
  · refine ⟨_, exec_tlpEncode_error (tlpEncode_invalidFormat hf cap) s, ?_, fun a => ?_⟩
    · rw [if_pos hf]
      rfl
    · rw [if_neg (by omega)]
      rfl
  · obtain ⟨hw, pay, hbits, hbytes⟩ := hdrLenBits_header (f := f) (len := lengthBits h.w0.toNat)
      (td := h.w0.toNat / 2 ^ 15 % 2) (by omega)
    have hbytes : bytes = 4 * hdrCount hw := hbytes
    have henc := tlpEncode_header ((hdrLen_eq_bits h.w0).trans hbits) cap
    rw [if_neg hf, hbytes]
    by_cases hcap : cap < 4 * hdrCount hw
    · rw [if_pos hcap] at henc ⊢
      refine ⟨_, exec_tlpEncode_error henc s, rfl, fun a => ?_⟩
      rw [if_neg (by omega)]
      rfl
    · rw [if_neg hcap] at henc ⊢
      refine ⟨_, exec_tlpEncode_ok henc s, ?_, fun a => ?_⟩
      · rw [encodedState, headerSpan_bytes_length]
        rfl
      · rw [hostByte_encodedState, headerSpan_bytes_length]
        by_cases ha : a < 4 * hdrCount hw
        · rw [if_pos ha, if_pos (by omega)]
          exact headerSpan_byte h ha
        · rw [if_neg ha, if_neg (by omega)]

/-! ### The round trip -/

/-- The words of a header value, read as a header again (R43, R228). -/
theorem headerOfWords_span {h : Header} (h3 : h.hw = .dw3 → h.w3 = 0) (p : List Word) :
    headerOfWords h.hw (headerSpan h h.hw ++ p) = h := by
  obtain ⟨w0, w1, w2, w3, hw⟩ := h
  cases hw with
  | dw3 => exact congrArg (Header.mk w0 w1 w2 · .dw3) (h3 rfl).symm
  | dw4 => rfl

/-- A header's words begin with its first. -/
theorem headerSpan_eq_cons (h : Header) (hw : HdrWords) :
    headerSpan h hw = h.w0 :: (headerSpan h hw).tail := by
  cases hw <;> rfl

/-- Decoding a header's words and a tail of its payload and digest, under either check (R223, R228). -/
theorem tlpDecode_headerSpan {h : Header} {p : List Word} {pay d t : Nat} (hlen : hdrLen h.w0 = .header h.hw pay d t)
    (h3 : h.hw = .dw3 → h.w3 = 0) (hp : p.length = pay + d) (c : DecodeCheck) :
    tlpDecode c (headerSpan h h.hw ++ p) = .ok { h := h, pfx := 0, poff := hdrCount h.hw, plen := pay } := by
  have hcons : headerSpan h h.hw ++ p = h.w0 :: ((headerSpan h h.hw).tail ++ p) := by
    rw [← List.cons_append, ← headerSpan_eq_cons]
  have hroom : ¬ 1 + ((headerSpan h h.hw).tail ++ p).length < headerNeed c h.hw t := by
    have hneed : headerNeed c h.hw t ≤ t := by
      obtain ⟨htotal, -⟩ := hdrLen_total hlen
      cases c <;> simp only [headerNeed] <;> omega
    have hcount := congrArg List.length hcons
    rw [List.length_append, headerSpan_length, List.length_cons] at hcount
    obtain ⟨htotal, -⟩ := hdrLen_total hlen
    omega
  have hdec := tlpDecode_header (pre := []) nofun hlen c ((headerSpan h h.hw).tail ++ p)
  rw [if_neg hroom, ← hcons, headerOfWords_span h3, List.nil_append, List.length_nil, Nat.zero_add] at hdec
  rw [← hdec, hcons]

/-- Settles O38: the destination holds the bytes of the header's words, which read back as those words. -/
theorem codecRoundTrip : Obligations.CodecRoundTrip := by
  intro h p s pay d t hlen h3 hp
  have henc := tlpEncode_header hlen (4 * hdrCount h.hw)
  rw [if_neg (lt_irrefl _)] at henc
  have hwords : wordsOf ((List.range (4 * hdrCount h.hw)).map
      (hostByte (encodedState (bytesOfWords (headerSpan h h.hw)) s))) = headerSpan h h.hw := by
    rw [← headerSpan_bytes_length h, map_hostByte_encodedState, wordsOf_bytesOfWords]
  refine ⟨_, exec_tlpEncode_ok henc s, ?_, ?_⟩
  · rw [encodedState, headerSpan_bytes_length]
    rfl
  · rw [hwords]
    refine ⟨List.drop_left' (headerSpan_length h h.hw), ?_⟩
    exact congrArg (fun r => Host.Outcome.next (deliver (.decoded r) _)) (tlpDecode_headerSpan hlen h3 hp _)

/-! ## TLP_SEND -/

/-- The bytes of a transmit record below its word (R128). -/
theorem bytesBe_txTlpLow (last : Bool) : bytesBe (txTlpLow last) = [0x00, 0x00, if last then 0x04 else 0x00, 0x77] := by
  cases last <;> decide

/-- `Frame(ws)` under `REC8_77`, record by record, the last one marked (R128, R225). -/
theorem frameRec877_eq (ws : List Word) : frameRec877 ws = (List.range ws.length).flatMap fun j =>
    bytesBe (ws.getD j 0) ++ [0x00, 0x00, if j + 1 = ws.length then 0x04 else 0x00, 0x77] := by
  induction ws with
  | nil => rfl
  | cons w ws ih =>
    have hlast : (0 + 1 = ws.length + 1) ↔ ws.isEmpty = true := by
      rw [List.isEmpty_iff, ← List.length_eq_zero_iff]
      omega
    rw [frameRec877, ih, recBytes_txTlpRec, bytesBe_txTlpLow, List.length_cons, List.range_succ_eq_map,
      List.flatMap_cons, List.flatMap_map]
    simp only [hlast, Nat.succ_eq_add_one, Nat.add_right_cancel_iff, List.getD_cons_zero, List.getD_cons_succ]

/-- The words of a TLP framed one after another (R225). -/
theorem goes_sendWords (ws : List Word) {s : State} (hc : s.ctl = .send ws) :
    Goes ws.length s { s with txFrame := s.txFrame ++ frameRec877 ws, ctl := .send [] } := by
  induction ws generalizing s with
  | nil =>
    have hs : { s with txFrame := s.txFrame ++ frameRec877 [], ctl := .send [] } = s := by
      rw [← hc, frameRec877, List.append_nil]
    rw [hs]
    exact .refl s
  | cons w ws ih =>
    have htick : tick s = .go (sendWord w ws.isEmpty s) := by simp only [tick, hc]
    have hnext := sendWord_eq hc w ws.isEmpty
    rw [← recBytes_txTlpRec] at hnext
    refine .step (by rw [hc]; nofun) htick ?_
    rw [hnext]
    have hrest := ih (s := { s with txFrame := s.txFrame ++ recBytes (txTlpRec w ws.isEmpty), ctl := .send ws }) rfl
    rwa [List.append_assoc] at hrest

/-- The one TransportWrite of a whole frame, and the outcome its answer gives (R225). -/
theorem sendFrame_eq (s : State) :
    (nextWrite s = .ok → sendFrame s = { tookWrite s with
      ctl := .idle, txFrame := [], trace := s.trace ++ [.wrote s.txFrame], replies := s.replies ++ [.sent .ok] }) ∧
    ∀ k, nextWrite s = .tErr k → sendFrame s = { tookWrite s with
      ctl := .idle, txFrame := [], trace := s.trace ++ [.writeFailed (s.txFrame.take k)]
      replies := s.replies ++ [.sent .transportError] } := by
  constructor
  · intro h
    simp only [sendFrame, transportWrite, h]
    rfl
  · intro k h
    simp only [sendFrame, transportWrite, h]
    rfl

/-- The frame of a TLP's words under the framing (R225; log entry 3). -/
def frameOf (p : Params) (ws : List Word) : List Byte :=
  match p.txFraming with
  | .rec877 => frameRec877 ws
  | .other k => Config.otherFraming k ws

/-- A TLP_SEND begun runs to the write of its frame (R225). -/
theorem runOp_startSend (ws : List Word) (s : State) : runOp (startSend ws s) =
    sendFrame { s with txFrame := frameOf s.cfg ws, ctl := .send [] } := by
  have hwrite {u : State} (hu : u.ctl = .send []) : Goes 1 u (sendFrame u) :=
    .step (by rw [hu]; nofun) (by simp only [tick, hu]) (.refl _)
  have hidle (u : State) : (sendFrame u).ctl = .idle := (sendFrame_frame u).2.2
  cases hf : s.cfg.txFraming <;> simp only [startSend, frameOf, hf]
  case rec877 =>
    have hwords := goes_sendWords ws (s := (s.setFrame []).setCtl (.send ws)) rfl
    refine runOp_of_goes (hwords.trans (hwrite rfl)) (hidle _) ?_
    simp only [dispatchBound, State.setCtl_ctl]
    omega
  case other =>
    refine runOp_of_goes (hwrite rfl) (hidle _) ?_
    simp only [dispatchBound]
    omega

/-- TLP_SEND of a header and the tail of its total is the write of their frame (R225). -/
theorem exec_tlpSend {h : Header} {tail : List Word} {hw : HdrWords} {pay d t : Nat}
    (hlen : hdrLen h.w0 = .header hw pay d t) (ht : hdrCount hw + tail.length = t) (s : State) :
    exec (.tlpSend h tail) s =
      .next (sendFrame { s with txFrame := frameOf s.cfg (headerSpan h hw ++ tail), ctl := .send [] }) := by
  show execTlpSend h tail s = _
  rw [execTlpSend, hlen, ← runOp_startSend]
  exact if_neg (not_not.mpr ht)

/-- Settles O39: the words' frame goes out in the one write. -/
theorem tlpSendResult : Obligations.TlpSendResult := by
  intro h tail s hw pay d t hlen ht ws frame
  have hspan : headerSpan h hw ++ tail = ws := by
    cases hw <;> rfl
  have hframe : frameOf s.cfg (headerSpan h hw ++ tail) = frame := by
    have hcount : (headerSpan h hw ++ tail).length = t := by rw [List.length_append, headerSpan_length, ht]
    rw [hspan] at hcount ⊢
    cases hf : s.cfg.txFraming <;> simp only [frameOf, frame, hf]
    rw [frameRec877_eq, hcount]
  rw [exec_tlpSend hlen ht, hframe]
  obtain ⟨hok, herr⟩ := sendFrame_eq { s with txFrame := frame, ctl := .send [] }
  exact ⟨fun hnext => congrArg Host.Outcome.next (hok hnext), fun k hnext => congrArg Host.Outcome.next (herr k hnext)⟩

/-- Settles O40: refused by the format, then by the length. -/
theorem tlpSendRefused : Obligations.TlpSendRefused := by
  intro h tail s
  constructor
  · intro hf
    show execTlpSend h tail s = _
    rcases hdrLen_of_four_le hf with e | e <;> rw [execTlpSend, e] <;> rfl
  · intro hw pay d t hlen hne
    show execTlpSend h tail s = _
    rw [execTlpSend, hlen]
    exact if_pos hne

/-! ## CFG_REGOFF and the fields of a header -/

/-- The register offset is bits 11..2 of the word, in place (R120): the two fields stand side by side. -/
theorem regOff_toNat (d : Word) : (regOff d).toNat = d.toNat % 4096 / 4 * 4 := by
  have hhigh : ((d.extractLsb' 8 4).zeroExtend 12 <<< 8).toNat = (d.toNat / 2 ^ 8 % 2 ^ 4) <<< 8 := by
    rw [BitVec.toNat_shiftLeft, BitVec.toNat_setWidth, BitVec.extractLsb'_toNat, Nat.shiftRight_eq_div_pow,
      Nat.shiftLeft_eq, Nat.shiftLeft_eq]
    omega
  have hlow : ((d.extractLsb' 2 6).zeroExtend 12 <<< 2).toNat = d.toNat / 2 ^ 2 % 2 ^ 6 * 2 ^ 2 := by
    rw [BitVec.toNat_shiftLeft, BitVec.toNat_setWidth, BitVec.extractLsb'_toNat, Nat.shiftRight_eq_div_pow,
      Nat.shiftLeft_eq]
    omega
  rw [regOff, BitVec.toNat_or, hhigh, hlow, ← Nat.shiftLeft_add_eq_or_of_lt (by omega), Nat.shiftLeft_eq]
  omega

/-- Settles O41: the offset's bits, and its low two are 0. -/
theorem cfgRegoffResult : Obligations.CfgRegoffResult := by
  intro h s
  have hoff : regOff h.w2 = BitVec.ofNat 12 (h.w2.toNat % 4096 / 4 * 4) :=
    BitVec.eq_of_toNat_eq (by rw [regOff_toNat, BitVec.toNat_ofNat]; omega)
  exact ⟨congrArg (fun o => Host.Outcome.next (deliver (.regOff o) s)) hoff, by rw [regOff_toNat]; omega⟩

theorem Header.setWord_hw (h : Header) (k : Nat) (w : Word) : (Header.setWord h k w).hw = h.hw := by
  unfold Header.setWord
  split <;> rfl

theorem Header.word_eq_getD (h : Header) (k : Nat) : Header.word h k = (Header.words h).getD k 0 := by
  match k with
  | 0 | 1 | 2 | 3 | _ + 4 => rfl

theorem Header.words_setWord (h : Header) (k : Nat) (w : Word) :
    Header.words (Header.setWord h k w) = (Header.words h).set k w := by
  match k with
  | 0 | 1 | 2 | 3 | _ + 4 => rfl

theorem Header.word_setWord_same (h : Header) {k : Nat} (hk : k < 4) (w : Word) :
    Header.word (Header.setWord h k w) k = w := by
  rw [Header.word_eq_getD, Header.words_setWord, List.getD_eq_getElem?_getD, List.getElem?_set_self hk,
    Option.getD_some]

theorem Header.word_setWord_other (h : Header) {k j : Nat} (hkj : k ≠ j) (w : Word) :
    Header.word (Header.setWord h k w) j = Header.word h j := by
  rw [Header.word_eq_getD, Header.words_setWord, List.getD_eq_getElem?_getD, List.getElem?_set_ne hkj,
    ← List.getD_eq_getElem?_getD, ← Header.word_eq_getD]

/-- A field read is the bits of its word at its place (R227). -/
theorem Field.get_eq_extractLsb' (f : Field) (h : Header) :
    Field.get f h = ((Header.word h f.word).extractLsb' f.lo f.width).toNat := by
  rw [Field.get, BitVec.extractLsb'_toNat, Nat.shiftRight_eq_div_pow]

theorem Field.testBit_get (f : Field) (h : Header) (i : Nat) :
    (Field.get f h).testBit i = (decide (i < f.width) && (Header.word h f.word).getLsbD (f.lo + i)) := by
  rw [Field.get_eq_extractLsb', BitVec.testBit_toNat, BitVec.getLsbD_extractLsb']

/-- The bits of a word that belong to a field. -/
def Field.Covers (f : Field) (i : Nat) : Prop := f.lo ≤ i ∧ i < f.lo + f.width

theorem Field.getLsbD_mask (f : Field) {i : Nat} (hi : i < 32) : f.mask.getLsbD i = true ↔ f.Covers i := by
  rw [Field.mask, BitVec.getLsbD_ofNat, Nat.testBit_mul_two_pow, Nat.testBit_two_pow_sub_one]
  simp only [hi, decide_true, Bool.true_and, Bool.and_eq_true, decide_eq_true_eq, Field.Covers]
  omega

section
variable {f : Field} (hf : f.word < 4) (h : Header) (v : Nat) {i : Nat} (hi : i < 32)
include hf hi

/-- A bit of a field just written is the value's (R227). -/
theorem Field.getLsbD_set_covered (hc : f.Covers i) :
    (Header.word (Field.set f h v) f.word).getLsbD i = v.testBit (i - f.lo) := by
  have hmask := (f.getLsbD_mask hi).mpr hc
  obtain ⟨hlo, hup⟩ := hc
  rw [Field.set, Header.word_setWord_same h hf, BitVec.getLsbD_or, BitVec.getLsbD_and, BitVec.getLsbD_and,
    BitVec.getLsbD_not, hmask, BitVec.getLsbD_ofNat, Nat.testBit_mul_two_pow, Nat.testBit_mod_two_pow]
  simp [hi, hlo, show i - f.lo < f.width by omega]

/-- A bit outside a field just written stays (R227). -/
theorem Field.getLsbD_set_uncovered (hc : ¬ f.Covers i) :
    (Header.word (Field.set f h v) f.word).getLsbD i = (Header.word h f.word).getLsbD i := by
  have hmask : f.mask.getLsbD i = false := Bool.eq_false_iff.mpr (mt (f.getLsbD_mask hi).mp hc)
  rw [Field.set, Header.word_setWord_same h hf, BitVec.getLsbD_or, BitVec.getLsbD_and, BitVec.getLsbD_and,
    BitVec.getLsbD_not, hmask]
  simp [hi]
end

/-- A field just written reads as the value, cut to its width (R227). -/
theorem Field.get_set_same {f : Field} (hf : f.word < 4) (hw : f.lo + f.width ≤ 32) (h : Header) (v : Nat) :
    Field.get f (Field.set f h v) = v % 2 ^ f.width := by
  refine Nat.eq_of_testBit_eq fun i => ?_
  rw [Field.testBit_get, Nat.testBit_mod_two_pow]
  by_cases hi : i < f.width
  · rw [Field.getLsbD_set_covered hf h v (by omega) ⟨by omega, by omega⟩, Nat.add_sub_cancel_left]
  · simp [hi]

/-- A field with no bit in common with the one written reads as before (R227). -/
theorem Field.get_set_disjoint {f g : Field} (hf : f.word < 4) (hg : g.lo + g.width ≤ 32)
    (hfg : f.word ≠ g.word ∨ f.lo + f.width ≤ g.lo ∨ g.lo + g.width ≤ f.lo) (h : Header) (v : Nat) :
    Field.get g (Field.set f h v) = Field.get g h := by
  by_cases hword : f.word = g.word
  · refine Nat.eq_of_testBit_eq fun i => ?_
    rw [Field.testBit_get, Field.testBit_get, ← hword]
    by_cases hi : i < g.width
    · have hout : ¬ f.Covers (g.lo + i) := by
        rintro ⟨hlo, hup⟩
        omega
      rw [Field.getLsbD_set_uncovered hf h v (by omega) hout]
    · simp [hi]
  · rw [Field.get, Field.get, Field.set, Header.word_setWord_other h hword]

/-- Settles O42: a field by its bits, written and read, and the named fields by their places. -/
theorem fieldLaws : Obligations.FieldLaws := by
  refine ⟨fun f g h v hf hfw hgw => ⟨Field.get_set_same hf hfw h v, Header.setWord_hw h _ _,
    fun hfg => Field.get_set_disjoint hf hgw hfg h v⟩, fun h => ?_⟩
  have reads (fs : List Field) : fs.map (fun f => Field.get f h) =
      fs.map fun f => ((Header.word h f.word).extractLsb' f.lo f.width).toNat :=
    List.map_congr_left fun f _ => Field.get_eq_extractLsb' f h
  exact ⟨reads _, reads _, reads _, reads _, reads _,
    fun hw => ⟨reads _, reads _, reads _, reads _, reads _⟩, rfl⟩

/-! ## What leaves the receiver alone -/

/-- A register transaction that ends leads to no receive operation. -/
theorem inRx_finishPhase (s : State) : inRx (finishPhase s).ctl = false := by
  unfold finishPhase
  simp only
  split
  · rfl
  · split <;> rfl
  · split
    · rfl
    · split <;> rfl
  · split <;> rfl
  · split <;> rfl

theorem inRx_regTick {s : State} (hc : inRx s.ctl = false) : inRx (regTick s).state.ctl = false := by
  have same {t : State} (h : SameCall s t) : inRx t.ctl = false := by rw [h.1, hc]
  unfold regTick
  split
  · exact (congrArg inRx (checkOperands_ctl s)).trans hc
  · split
    · exact same (issueRecord_sameCall _ s)
    · exact same (flushBatch_sameCall s)
  · exact same ⟨rfl, rfl⟩
  · exact same (harvestTick_sameCall s)
  · exact inRx_finishPhase s

/-- One dispatch of an operation other than a receive operation. -/
theorem tick_txFrame {s : State} (hc : inRx s.ctl = false) :
    TxFrame s (tick s).state ∧ inRx (tick s).state.ctl = false := by
  unfold tick
  split <;> rename_i hctl
  · exact ⟨⟨rfl, rfl, rfl, rfl, rfl⟩, hc⟩
  · rw [hctl] at hc
    cases hc
  · obtain ⟨hframe, -, hidle⟩ := sendFrame_frame s
    exact ⟨hframe, congrArg inRx hidle⟩
  · exact ⟨⟨rfl, rfl, rfl, rfl, rfl⟩, by simp [Tick.state, sendWord, sendRest, hctl, inRx]⟩
  · exact ⟨regTick_frame s, inRx_regTick hc⟩

/-- A register operation or a TLP_SEND run to its end leaves the receiver alone. -/
theorem runOp_txFrame {s : State} (hc : inRx s.ctl = false) : TxFrame s (runOp s) := by
  have hrun := run_induct (fun t => TxFrame s t ∧ inRx t.ctl = false) (fun t _ ⟨hframe, ht⟩ =>
    ⟨hframe.trans' (tick_txFrame ht).1, (tick_txFrame ht).2⟩) (dispatchBound s) s ⟨⟨rfl, rfl, rfl, rfl, rfl⟩, hc⟩
  exact hrun.1

theorem runOp_startRead_rx (addr cnt : Nat) (region : Half) (ch : Nat) (cont : Cont) (s : State) :
    (runOp (startRead addr cnt region ch cont s)).rx = s.rx := by
  obtain ⟨-, hrx, -⟩ := runOp_txFrame (s := startRead addr cnt region ch cont s) rfl
  exact hrx

theorem runOp_startWrite_rx (addr : Nat) (data : List Byte) (region : Half) (ch : Nat) (cont : Cont) (s : State) :
    (runOp (startWrite addr data region ch cont s)).rx = s.rx := by
  obtain ⟨-, hrx, -⟩ := runOp_txFrame (s := startWrite addr data region ch cont s) rfl
  exact hrx

theorem execTlpSend_rx {h : Header} {tail : List Word} {s t : State} (he : execTlpSend h tail s = .next t) :
    t.rx = s.rx := by
  unfold execTlpSend at he
  split at he
  · cases he; rfl
  · cases he; rfl
  · split at he <;> cases he
    · rfl
    · rw [runOp_startSend]
      obtain ⟨⟨-, hrx, -⟩, -⟩ := sendFrame_frame
        { s with txFrame := frameOf s.cfg (headerSpan h _ ++ tail), ctl := .send [] }
      exact hrx

theorem execTlpEncode_rx {h : Header} {cap : Nat} {s t : State} (he : execTlpEncode h cap s = .next t) :
    t.rx = s.rx := by
  unfold execTlpEncode at he
  split at he <;> cases he <;> rfl

theorem emitRegReq_rx {region ch : BitVec 2} {r : Rec} {s t : State} (he : emitRegReq region ch r s = .next t) :
    t.rx = s.rx := by
  unfold emitRegReq at he
  split at he <;> cases he
  · obtain ⟨-, hrx, -⟩ := issueRecord_frame r s
    exact hrx
  · rfl

/-- Settles O57: instruction by instruction, those that act on the receiver excluded. -/
theorem receiverFrame : Obligations.ReceiverFrame := by
  intro i s t hi he
  cases i
  case tlpHdrlen => cases he; rfl
  case tlpDecode => cases he; rfl
  case tlpEncode => exact execTlpEncode_rx he
  case tlpSend => exact execTlpSend_rx he
  case cfgRegoff => cases he; rfl
  case regRead => cases he; exact runOp_startRead_rx _ _ _ _ _ s
  case regWrite => cases he; exact runOp_startWrite_rx _ _ _ _ _ s
  case regRead8 => cases he; exact runOp_startRead_rx _ _ _ _ _ s
  case regClrbits8 => cases he; exact runOp_startRead_rx _ _ _ _ _ s
  case regresp => cases he; rfl
  case regRd => exact emitRegReq_rx he
  case regWr => exact emitRegReq_rx he
  case txTlpWord => cases he; rfl
  case txTlpLast => cases he; rfl
  all_goals cases hi

end Sys2Proof.Machine
end

section
/-! SUPPORT. The proofs of the family of spec/42_register_access.md: the records, the pairs, the places and the scanner,
the units of a register transaction, whole calls of REG_READ and REG_WRITE, and SESSION_INIT. -/

namespace Sys2Proof.Machine

/-! ## A Fatal session -/

theorem step_of_halted {s : State} (h : hasHalted s = true) : step s = .fault .afterFatal := if_pos h

/-- Settles O13: a Fatal session has halted. -/
theorem fatalHasNoStep : Obligations.FatalHasNoStep := fun s _ hs => step_of_halted (by rw [hasHalted, hs])

/-! ## Records, pairs and places -/

/-! ### The bytes of a record -/

/-- A request record's bytes in wire order (R125). -/
theorem recBytes_reqRec (d0 d1 beLo beHi : Byte) (fa : Half) (cmd : Byte) :
    recBytes (reqRec d0 d1 beLo beHi fa cmd) =
      [d0, d1, beLo, beHi, fa.extractLsb' 8 8, fa.extractLsb' 0 8, cmd, Lit.recTrailer] := by
  obtain ⟨-, h0, h1, h2, h3⟩ := reqRec_extract_data d0 d1 beLo beHi fa cmd
  obtain ⟨htrailer, -⟩ := reqRec_extract_command d0 d1 beLo beHi fa cmd
  have hrest : (reqRec d0 d1 beLo beHi fa cmd).extractLsb' 24 8 = fa.extractLsb' 8 8 ∧
      (reqRec d0 d1 beLo beHi fa cmd).extractLsb' 16 8 = fa.extractLsb' 0 8 ∧
      (reqRec d0 d1 beLo beHi fa cmd).extractLsb' 8 8 = cmd := by
    refine ⟨?_, ?_, ?_⟩ <;>
      simp (disch := omega) only [reqRec_extract, BitVec.extractLsb'_append_eq_of_le,
        BitVec.extractLsb'_append_eq_of_add_le, BitVec.extractLsb'_eq_self, Nat.reduceSub]
  obtain ⟨h4, h5, h6⟩ := hrest
  rw [recBytes, h0, h1, h2, h3]
  exact congrArg ([d0, d1, beLo, beHi] ++ ·) (by rw [recByte, recByte, recByte, recByte, h4, h5, h6, htrailer])

theorem recBytes_length (r : Rec) : (recBytes r).length = 8 := rfl

/-- A region's bits stand above every address of the register space, so the flagged address is their sum (R53,
R122). -/
theorem flaggedAddr_toNat {region : Half} {a : Nat} (hr : regionLegal region = true) (ha : a < 4096) :
    (flaggedAddr region a).toNat = region.toNat + a := by
  have hlow : a % 65536 = a := Nat.mod_eq_of_lt (by omega)
  have hor (k : Nat) : (k * 2 ^ 12) ||| a = k * 2 ^ 12 + a := by
    rw [Nat.mul_comm, Nat.two_pow_add_eq_or_of_lt ha]
  simp only [flaggedAddr, BitVec.toNat_or, BitVec.toNat_ofNat, Nat.reducePow, hlow]
  simp only [regionLegal, Bool.or_eq_true, decide_eq_true_eq] at hr
  obtain (rfl | rfl) | rfl := hr
  · exact hor 0
  · exact hor 8
  · exact hor 12

/-- The two address bytes of a record (R125). -/
theorem flaggedAddr_bytes {region : Half} {a : Nat} (hr : regionLegal region = true) (ha : a < 4096) :
    (flaggedAddr region a).extractLsb' 8 8 = BitVec.ofNat 8 ((region.toNat + a) / 256) ∧
      (flaggedAddr region a).extractLsb' 0 8 = BitVec.ofNat 8 (a % 256) := by
  have hregion : region.toNat % 256 = 0 := by
    simp only [regionLegal, Bool.or_eq_true, decide_eq_true_eq] at hr
    obtain (rfl | rfl) | rfl := hr <;> rfl
  constructor <;> apply BitVec.eq_of_toNat_eq <;>
    rw [BitVec.extractLsb'_toNat, flaggedAddr_toNat hr ha, Nat.shiftRight_eq_div_pow, BitVec.toNat_ofNat]
  omega

/-- The command byte of a record, with its channel (R126). -/
theorem command_byte {ch : Nat} (hch : channelLegal ch = true) :
    Lit.cmdRead ||| BitVec.ofNat 8 ch = BitVec.ofNat 8 (0x10 + ch) ∧
      Lit.cmdWrite ||| BitVec.ofNat 8 ch = BitVec.ofNat 8 (0x20 + ch) := by
  simp only [channelLegal, Bool.and_eq_true, decide_eq_true_eq] at hch
  obtain ⟨h1, h3⟩ := hch
  interval_cases ch <;> decide

section
variable {region : Half} {ch a : Nat} (hr : regionLegal region = true) (hch : channelLegal ch = true) (ha : a < 4096)
include hr hch ha

theorem recBytes_readRec :
    recBytes (readRec region ch a) =
      [0, 0, 0, 0, BitVec.ofNat 8 ((region.toNat + a) / 256), BitVec.ofNat 8 (a % 256), BitVec.ofNat 8 (0x10 + ch),
        0x77] := by
  obtain ⟨hhi, hlo⟩ := flaggedAddr_bytes hr ha
  rw [readRec, recBytes_reqRec, hhi, hlo, (command_byte hch).1]
  rfl

theorem recBytes_writeRec (addr : Nat) (data : List Byte) :
    recBytes (writeRec addr data region ch a) =
      [writeData addr data a, writeData addr data (a + 1), writeEnable addr data.length a,
        writeEnable addr data.length (a + 1), BitVec.ofNat 8 ((region.toNat + a) / 256), BitVec.ofNat 8 (a % 256),
        BitVec.ofNat 8 (0x20 + ch), 0x77] := by
  obtain ⟨hhi, hlo⟩ := flaggedAddr_bytes hr ha
  rw [writeRec, recBytes_reqRec, hhi, hlo, (command_byte hch).2]
  rfl
end

/-- Settles O44: the record builders by their bytes. -/
theorem recordBytes : Obligations.RecordBytes := by
  intro region ch a addr data hr hch ha hi lo byte enable
  refine ⟨recBytes_readRec hr hch ha, ?_⟩
  have hdata (x : Nat) : writeData addr data x = byte x := by
    simp only [writeData, inRange, byte, Bool.and_eq_true, decide_eq_true_eq]
  have henable (x : Nat) : writeEnable addr data.length x = enable x := by
    simp only [writeEnable, inRange, enable, Bool.and_eq_true, decide_eq_true_eq]
  rw [recBytes_writeRec hr hch ha, hdata, hdata, henable, henable]

/-! ### The pairs of a range -/

theorem mem_pairs_iff (addr cnt a : Nat) :
    a ∈ pairs addr cnt ↔ a % 2 = 0 ∧ addr - addr % 2 ≤ a ∧ a < addr + cnt := by
  simp only [pairs, List.mem_map, List.mem_range]
  constructor
  · rintro ⟨k, hk, rfl⟩
    omega
  · rintro ⟨heven, hfrom, hto⟩
    exact ⟨(a - (addr - addr % 2)) / 2, by omega, by omega⟩

theorem pairs_length (addr cnt : Nat) :
    (pairs addr cnt).length = (addr + cnt - (addr - addr % 2) + 1) / 2 := by
  simp only [pairs, List.length_map, List.length_range]

theorem pairs_pairwise (addr cnt : Nat) : (pairs addr cnt).Pairwise (· < ·) :=
  List.pairwise_lt_range.map _ fun _ _ h => by omega

/-- Settles O45: membership, order, number, and the bound that evenness adds to the range check. -/
theorem pairsRule : Obligations.PairsRule := by
  intro addr cnt
  refine ⟨mem_pairs_iff addr cnt, pairs_pairwise addr cnt, pairs_length addr cnt, fun hrange a ha => ?_⟩
  obtain ⟨heven, -, hlt⟩ := (mem_pairs_iff addr cnt a).mp ha
  omega

/-! ### Where a response's bytes go -/

/-- The offset of a response in a range of the register space: how far its masked address stands above the range's
start, and just below 2^16 when it stands below (R287, R250). -/
theorem respOffset_eq {addr : Nat} (haddr : addr ≤ 4096) (a : Half) :
    respOffset addr a =
      if addr ≤ a.toNat % 4096 then a.toNat % 4096 - addr else 65536 + a.toNat % 4096 - addr := by
  have hmask : (a &&& Lit.regAddrMask).toNat = a.toNat % 4096 :=
    Nat.and_two_pow_sub_one_eq_mod a.toNat 12
  rw [respOffset, BitVec.toNat_sub, hmask, BitVec.toNat_ofNat]
  split <;> omega

theorem putByte_getD {j k : Nat} {b : Byte} {t : Txn} (ho : k < t.out.length) (hg : k < t.got.length) :
    (putByte j b t).out.getD k 0 = (if j = k then b else t.out.getD k 0) ∧
      (putByte j b t).got.getD k false = (if j = k then true else t.got.getD k false) := by
  by_cases h : j = k
  · subst h
    simp [putByte, ho, hg]
  · simp [putByte, h]

/-- A byte put at its place if that lies in the range (R287). -/
def putAt (j : Nat) (b : Byte) (t : Txn) : Txn := if j < t.cnt then putByte j b t else t

theorem putAt_frame (j : Nat) (b : Byte) (t : Txn) :
    (putAt j b t).cnt = t.cnt ∧ (putAt j b t).out.length = t.out.length ∧
      (putAt j b t).got.length = t.got.length := by
  unfold putAt
  split
  · exact ⟨rfl, List.length_set, List.length_set⟩
  · exact ⟨rfl, rfl, rfl⟩

theorem putAt_getD {j k : Nat} {b : Byte} {t : Txn} (hk : k < t.cnt) (ho : t.out.length = t.cnt)
    (hg : t.got.length = t.cnt) :
    (putAt j b t).out.getD k 0 = (if j = k then b else t.out.getD k 0) ∧
      (putAt j b t).got.getD k false = (if j = k then true else t.got.getD k false) := by
  unfold putAt
  split
  · exact putByte_getD (ho ▸ hk) (hg ▸ hk)
  · have hne : j ≠ k := by omega
    simp only [hne, if_false, and_self]

section
variable {a : Half} {t : Txn} (hrange : t.addr + t.cnt ≤ 4096) (dA dA1 : Byte)
include hrange

/-- A response more than one byte below the range has no place in it. -/
theorem place_below (h : a.toNat % 4096 + 1 < t.addr) : place a dA dA1 t = t := by
  have hoff := respOffset_eq (addr := t.addr) (by omega) a
  rw [if_neg (by omega)] at hoff
  simp only [place]
  rw [if_neg (by omega), if_neg (by omega), if_neg (by omega)]

omit hrange in
/-- The second byte of the pair before an odd start is the first output byte: the sentinel. -/
theorem place_sentinel (h : a.toNat % 4096 + 1 = t.addr) : place a dA dA1 t = putByte 0 dA1 t := by
  have hoff := respOffset_eq (addr := t.addr) (by omega) a
  rw [if_neg (by omega)] at hoff
  exact if_pos (by omega)

theorem place_from (h : t.addr ≤ a.toNat % 4096) :
    place a dA dA1 t = putAt (a.toNat % 4096 - t.addr + 1) dA1 (putAt (a.toNat % 4096 - t.addr) dA t) := by
  have hoff := respOffset_eq (addr := t.addr) (by omega) a
  rw [if_pos h] at hoff
  obtain ⟨hcnt, -⟩ := putAt_frame (a.toNat % 4096 - t.addr) dA t
  rw [putAt, hcnt]
  simp only [place, hoff]
  exact if_neg (by omega)

/-- Output byte `k` after a response: its first byte, its second, or the byte and flag there were (R287). -/
theorem place_getD (ho : t.out.length = t.cnt) (hg : t.got.length = t.cnt) {k : Nat} (hk : k < t.cnt) :
    (place a dA dA1 t).out.getD k 0 =
        (if a.toNat % 4096 + 1 = t.addr + k then dA1
          else if a.toNat % 4096 = t.addr + k then dA else t.out.getD k 0) ∧
      (place a dA dA1 t).got.getD k false =
        (if a.toNat % 4096 + 1 = t.addr + k then true
          else if a.toNat % 4096 = t.addr + k then true else t.got.getD k false) := by
  rcases lt_trichotomy (a.toNat % 4096 + 1) t.addr with hlt | heq | hgt
  · have hne : ¬ a.toNat % 4096 + 1 = t.addr + k ∧ ¬ a.toNat % 4096 = t.addr + k := by omega
    simp only [place_below hrange dA dA1 hlt, hne, if_false, and_self]
  · have hne : ¬ a.toNat % 4096 = t.addr + k := by omega
    have hzero : a.toNat % 4096 + 1 = t.addr + k ↔ 0 = k := by omega
    simp only [place_sentinel dA dA1 heq, hne, hzero, if_false]
    exact putByte_getD (ho ▸ hk) (hg ▸ hk)
  · have hfrom : t.addr ≤ a.toNat % 4096 := by omega
    obtain ⟨hcnt, hout, hgot⟩ := putAt_frame (a.toNat % 4096 - t.addr) dA t
    obtain ⟨ho1, hg1⟩ := putAt_getD (j := a.toNat % 4096 - t.addr) (b := dA) hk ho hg
    obtain ⟨ho2, hg2⟩ := putAt_getD (j := a.toNat % 4096 - t.addr + 1) (b := dA1) (hcnt ▸ hk)
      (hout.trans (ho.trans hcnt.symm)) (hgot.trans (hg.trans hcnt.symm))
    have hfirst : a.toNat % 4096 - t.addr = k ↔ a.toNat % 4096 = t.addr + k := by omega
    have hsecond : a.toNat % 4096 - t.addr + 1 = k ↔ a.toNat % 4096 + 1 = t.addr + k := by omega
    rw [place_from hrange dA dA1 hfrom, ho2, hg2, ho1, hg1]
    simp only [hfirst, hsecond, and_self]
end

/-- Settles O47: byte by byte, from where a response's bytes stand after it is placed. -/
theorem placeRule : Obligations.PlaceRule := by
  intro a dA dA1 t hrange ho hg m u
  obtain ⟨hout, hgot⟩ := place_length a dA dA1 t
  refine ⟨fun k hk => ?_, place_frame a dA dA1 t, hout.trans ho, hgot.trans hg⟩
  obtain ⟨hbyte, hflag⟩ := place_getD (a := a) hrange dA dA1 ho hg hk
  rw [hbyte, hflag]
  refine ⟨fun h => ?_, fun h => ?_, fun h h1 => ?_⟩
  · have hne : ¬ a.toNat % 4096 + 1 = t.addr + k := by omega
    exact ⟨(if_neg hne).trans (if_pos h), (if_neg hne).trans (if_pos h)⟩
  · exact ⟨if_pos h, if_pos h⟩
  · exact ⟨(if_neg h1).trans (if_neg h), (if_neg h1).trans (if_neg h)⟩

/-! ### The response scanner -/

theorem scanWords_skip (o : FrameOrder) (ch n : Nat) (ws : List Word) :
    scanWords o ch n ws = scanWords o ch 0 (ws.drop n) := by
  induction n generalizing ws with
  | zero => rfl
  | succ n ih =>
    cases ws with
    | nil => simp [scanWords]
    | cons w ws => exact ih ws

/-- The matches of a group are the words at the slots below the group's end whose nibble is the channel (R285,
R286). -/
theorem groupMatches_eq (v : Word) (ch : Nat) (ws : List Word) (j : Nat) :
    groupMatches v ch j ws =
      ((List.range (min (7 - j) ws.length)).filter fun i => decide (v.toNat / 16 ^ (j + i) % 16 = ch)).map
        fun i => ws.getD i 0 := by
  induction ws generalizing j with
  | nil => simp [groupMatches]
  | cons w ws ih =>
    unfold groupMatches
    by_cases hj : j < Lit.slotsPerGroup
    · have hlen : min (7 - j) (w :: ws).length = min (7 - (j + 1)) ws.length + 1 := by
        simp only [Lit.slotsPerGroup] at hj
        simp only [List.length_cons]
        omega
      have htail : (fun i => decide (v.toNat / 16 ^ (j + i) % 16 = ch)) ∘ Nat.succ =
          fun i => decide (v.toNat / 16 ^ (j + 1 + i) % 16 = ch) := by
        funext i
        rw [Function.comp, Nat.succ_eq_one_add, Nat.add_assoc]
      rw [if_pos hj, ih, nib_toNat, hlen, List.range_succ_eq_map, List.filter_cons, List.filter_map, htail]
      by_cases hm : v.toNat / 16 ^ j % 16 = ch
      · simp only [Nat.add_zero, hm, if_true, decide_true, List.map_cons, List.map_map]
        rfl
      · simp only [Nat.add_zero, hm, if_false, decide_false, Bool.false_eq_true, List.map_map]
        rfl
    · have hzero : 7 - j = 0 := by
        simp only [Lit.slotsPerGroup] at hj
        omega
      rw [if_neg hj, hzero]
      simp

section
variable (o : FrameOrder) (ch : Nat) {q : Word}

theorem scanWords_filler (h : frameValue o q = Lit.fillerWord) (rest : List Word) :
    scanWords o ch 0 (q :: rest) = scanWords o ch 0 rest := by
  simp only [scanWords, h, if_true]

theorem scanWords_other (hf : frameValue o q ≠ Lit.fillerWord) (hm : markOf (frameValue o q) ≠ Lit.statusMarker)
    (rest : List Word) : scanWords o ch 0 (q :: rest) = scanWords o ch 0 (rest.drop 7) := by
  simp only [scanWords, hf, hm, if_false]
  exact scanWords_skip o ch 7 rest

theorem scanWords_group (hm : markOf (frameValue o q) = Lit.statusMarker) (rest : List Word) :
    scanWords o ch 0 (q :: rest) =
      groupMatches (frameValue o q) ch 0 rest ++ scanWords o ch 0 (rest.drop 7) := by
  have hf : frameValue o q ≠ Lit.fillerWord := fun e => by
    rw [e] at hm
    exact absurd hm (by decide)
  simp only [scanWords, hf, hm, if_false, if_true]
  rw [scanWords_skip o ch 7 rest]
end

/-- Settles O48: the scanner's step for each kind of word. -/
theorem scanRule : Obligations.ScanRule := by
  refine fun o ch => ⟨rfl, fun q rest => ⟨fun hf => ?_, fun hf hm => ?_, fun hm => ?_⟩⟩
  · exact scanWords_filler o ch hf rest
  · exact scanWords_other o ch hf (fun e => hm ((markOf_eq_statusMarker_iff _).mp e)) rest
  · rw [scanWords_group o ch ((markOf_eq_statusMarker_iff _).mpr hm), groupMatches_eq]
    simp only [Nat.sub_zero, Nat.zero_add]

/-! ### The units of a transaction -/

/-- The address bits of a record are the flagged address of its pair (R125, R53). -/
theorem regReqAddress_eq (region : BitVec 2) (pair : BitVec 11) :
    region ++ 0#2 ++ pair ++ 0#1 = BitVec.ofNat 16 (region.toNat * 2 ^ 14 + 2 * pair.toNat) := by
  have append_toNat {n m : Nat} (x : BitVec n) (y : BitVec m) : (x ++ y).toNat = x.toNat * 2 ^ m + y.toNat := by
    rw [BitVec.toNat_append, ← Nat.shiftLeft_add_eq_or_of_lt y.isLt, Nat.shiftLeft_eq]
  apply BitVec.eq_of_toNat_eq
  simp only [append_toNat, BitVec.toNat_ofNat]
  omega

/-- The command byte of a record: its command, and the channel below it (R126). -/
theorem cmdBits_append {cmd : Byte} (hcmd : cmd = Lit.cmdRead ∨ cmd = Lit.cmdWrite) (ch : BitVec 2) :
    cmdBits cmd ++ ch = BitVec.ofNat 8 (cmd.toNat + ch.toNat) := by
  revert ch
  obtain rfl | rfl := hcmd <;> decide

/-- The low half of a record is its flagged address, its command byte and the trailer (R125, R126). -/
theorem regReqLow_eq {cmd : Byte} (hcmd : cmd = Lit.cmdRead ∨ cmd = Lit.cmdWrite) (region : BitVec 2)
    (pair : BitVec 11) (ch : BitVec 2) :
    regReqLow cmd region pair ch =
      BitVec.ofNat 16 (region.toNat * 2 ^ 14 + 2 * pair.toNat) ++ BitVec.ofNat 8 (cmd.toNat + ch.toNat) ++
        Lit.recTrailer := by
  have hassoc (fa : Half) : (fa ++ cmdBits cmd ++ ch : BitVec 24) = fa ++ (cmdBits cmd ++ ch : Byte) :=
    BitVec.eq_of_toNat_eq (by rw [BitVec.append_assoc, BitVec.toNat_cast])
  rw [regReqLow, regReqAddress_eq, hassoc, cmdBits_append hcmd]

/-- The bytes of a register record in wire order (R125, R126). -/
theorem recBytes_append_regReqLow {cmd : Byte} (hcmd : cmd = Lit.cmdRead ∨ cmd = Lit.cmdWrite)
    (d0 d1 beLo beHi : Byte) (region : BitVec 2) (pair : BitVec 11) (ch : BitVec 2) :
    let fa : Half := BitVec.ofNat 16 (region.toNat * 2 ^ 14 + 2 * pair.toNat)
    recBytes (d0 ++ d1 ++ beLo ++ beHi ++ regReqLow cmd region pair ch) =
      [d0, d1, beLo, beHi] ++
        [fa.extractLsb' 8 8, fa.extractLsb' 0 8, BitVec.ofNat 8 (cmd.toNat + ch.toNat), Lit.recTrailer] := by
  rw [regReqLow_eq hcmd]
  simp (disch := omega) only [recBytes, recByte, BitVec.extractLsb'_append_eq_of_le,
    BitVec.extractLsb'_append_eq_of_add_le, Nat.reduceSub, Nat.reduceMul, List.cons_append, List.nil_append]
  simp only [Nat.reduceAdd, Nat.reduceSub, BitVec.extractLsb'_eq_self]

/-- A full batch is written, and the record starts the next one (R284). -/
theorem issueRecord_full_ok {s : State} (hfull : s.cfg.txBatchBytes < s.txn.batch.length + 8)
    (hw : nextWrite s = .ok) (r : Rec) :
    issueRecord r s = { tookWrite s with
      trace := s.trace ++ [.wrote s.txn.batch], txn := { s.txn with batch := recBytes r, put := s.txn.put + 1 } } := by
  simp only [issueRecord, if_pos hfull, transportWrite, hw]
  rfl

/-- A full batch whose write errs ends the issue (R284, R359). -/
theorem issueRecord_full_tErr {s : State} {k : Nat} (hfull : s.cfg.txBatchBytes < s.txn.batch.length + 8)
    (hw : nextWrite s = .tErr k) (r : Rec) :
    issueRecord r s = { tookWrite s with
      trace := s.trace ++ [.writeFailed (s.txn.batch.take k)]
      txn := { s.txn with phase := .done, result := .transportError } } := by
  simp only [issueRecord, if_pos hfull, transportWrite, hw]
  rfl

section
variable {region : BitVec 2} {ch : BitVec 2}

theorem emitRegReq_illegal (h : region = 0b01 ∨ ch = 0) (r : Rec) (s : State) :
    emitRegReq region ch r s = .next (finishTxn .badOperand s) :=
  if_neg fun ⟨hr, hc⟩ => h.elim hr hc

theorem emitRegReq_legal (hr : region ≠ 0b01) (hc : ch ≠ 0) (r : Rec) (s : State) :
    emitRegReq region ch r s = .next (issueRecord r s) := if_pos ⟨hr, hc⟩
end

/-- Settles O49: the response by the frame of its placing, the records by the batch and by the write's answer. -/
theorem registerUnits : Obligations.RegisterUnits := by
  refine fun s => ⟨fun a dA dA1 => rfl, fun region pair ch d0 d1 beLo beHi => ?_⟩
  intro fa ends rd wr
  have hread : recBytes (regRdRec region pair ch) = rd :=
    recBytes_append_regReqLow (.inl rfl) 0#8 0#8 0#8 0#8 region pair ch
  have hwrite : recBytes (regWrRec d0 d1 beLo beHi region pair ch) = wr :=
    recBytes_append_regReqLow (.inr rfl) d0 d1 beLo beHi region pair ch
  have hrd : exec (.regRd region pair ch) s = emitRegReq region ch (regRdRec region pair ch) s := rfl
  have hwr : exec (.regWr d0 d1 beLo beHi region pair ch) s =
    emitRegReq region ch (regWrRec d0 d1 beLo beHi region pair ch) s := rfl
  rw [hrd, hwr, ← hread, ← hwrite]
  refine ⟨fun h => ?_, fun hr hc hfits => ?_, fun hr hc hfull => ⟨fun hw => ?_, fun k hw => ?_⟩⟩
  · exact ⟨emitRegReq_illegal h _ s, emitRegReq_illegal h _ s⟩
  · simp only [emitRegReq_legal hr hc, issueRecord_of_fits hfits]
    exact ⟨rfl, rfl⟩
  · simp only [emitRegReq_legal hr hc, issueRecord_full_ok hfull hw, and_self]
  · simp only [emitRegReq_legal hr hc, issueRecord_full_tErr hfull hw, and_self]

/-! ## Register calls -/

/-! ### Calls that fail their checks -/

section
variable {s : State}

theorem checkOperands_badOperand (h : (regionLegal s.txn.region && channelLegal s.txn.ch) = false) :
    checkOperands s = finishTxn .badOperand s :=
  if_pos (by rw [← Bool.not_and, h]; rfl)

variable (h : (regionLegal s.txn.region && channelLegal s.txn.ch) = true)
include h

theorem checkOperands_rangeError (hover : 4096 < s.txn.addr + s.txn.cnt) :
    checkOperands s = finishTxn .rangeError s := by
  obtain ⟨hr, hch⟩ := Bool.and_eq_true_iff.mp h
  have hover' : Lit.regSpaceBytes < s.txn.addr + s.txn.cnt := hover
  simp [checkOperands, hr, hch, hover']

theorem checkOperands_empty (hrange : s.txn.addr + s.txn.cnt ≤ 4096) (hzero : s.txn.cnt = 0) :
    checkOperands s = finishTxn .ok s := by
  obtain ⟨hr, hch⟩ := Bool.and_eq_true_iff.mp h
  have hrange' : ¬ Lit.regSpaceBytes < s.txn.addr + s.txn.cnt := Nat.not_lt.mpr hrange
  simp only [checkOperands, hr, hch, hrange', Bool.not_true, Bool.or_self, Bool.false_eq_true, if_false]
  exact if_pos hzero
end

/-- The outcome of a finished call goes to the host (R348). -/
theorem goes_finish_host {s : State} (hc : s.ctl = .reg) (hp : s.txn.phase = .done) (hcont : s.txn.cont = .host) :
    Goes 1 s (deliver (txnReply s.txn s.draws) (dropTxn s)) := by
  have hend := goes_finish hc hp
  simp only [finishPhase, hcont] at hend
  exact hend

/-- A call to which the checks give a result at once is over after two dispatches (R281). -/
theorem runOp_of_checked {r : RegStatus} {s : State} (hc : s.ctl = .reg) (hp : s.txn.phase = .idle)
    (hcont : s.txn.cont = .host) (hcheck : checkOperands s = finishTxn r s) :
    runOp s = deliver (txnReply (finishTxn r s).txn s.draws) (dropTxn (finishTxn r s)) := by
  have hend := goes_finish_host (s := finishTxn r s) hc rfl hcont
  exact runOp_of_goes ((goes_check hc hp hcheck).trans hend) rfl (by unfold dispatchBound; omega)

theorem legal_iff (region : Half) (ch : Nat) :
    (regionLegal region && channelLegal ch) = true ↔
      (region = 0x0000 ∨ region = 0x8000 ∨ region = 0xC000) ∧ (ch = 1 ∨ ch = 2 ∨ ch = 3) := by
  have hch : 1 ≤ ch ∧ ch ≤ 3 ↔ ch = 1 ∨ ch = 2 ∨ ch = 3 := by omega
  simp only [regionLegal, channelLegal, Bool.and_eq_true, Bool.or_eq_true, decide_eq_true_eq, hch, or_assoc]
  rfl

/-- A call of an idle machine that its checks end only returns their result (R281, R347). -/
theorem exec_of_checked {addr : Nat} {region : Half} {ch : Nat} {data : List Byte} {s : State} {r : RegStatus}
    (hc : s.ctl = .idle) (ht : s.txn = Txn.none) (hr : r = .badOperand ∨ r = .rangeError ∨ r = .ok)
    (hcheck : ∀ u : State, u.txn.region = region → u.txn.ch = ch → u.txn.addr = addr → u.txn.cnt = data.length →
      checkOperands u = finishTxn r u) :
    exec (.regRead addr data.length region ch) s = .next { s with replies := s.replies ++ [.regRead r []] } ∧
      exec (.regWrite addr data region ch) s = .next { s with replies := s.replies ++ [.regWrite r] } := by
  have hread := runOp_of_checked (s := startRead addr data.length region ch .host s) rfl rfl rfl
    (hcheck _ rfl rfl rfl rfl)
  have hwrite := runOp_of_checked (s := startWrite addr data region ch .host s) rfl rfl rfl
    (hcheck _ rfl rfl rfl rfl)
  obtain ⟨_, _, _, _, _⟩ := s
  subst hc ht
  refine ⟨(congrArg Host.Outcome.next hread).trans ?_, (congrArg Host.Outcome.next hwrite).trans ?_⟩
  · obtain rfl | rfl | rfl := hr <;> rfl
  · obtain rfl | rfl | rfl := hr <;> rfl

/-- Settles O43: the three ways the checks end a call. -/
theorem regOperandChecks : Obligations.RegOperandChecks := by
  intro addr cnt region ch data s hc ht hcnt legal ends
  subst hcnt
  have hlegal := legal_iff region ch
  refine ⟨fun h => exec_of_checked hc ht (.inl rfl) ?_, fun h hover => exec_of_checked hc ht (.inr (.inl rfl)) ?_,
    fun h hin hzero => exec_of_checked hc ht (.inr (.inr rfl)) ?_⟩
  · rintro u rfl rfl - -
    exact checkOperands_badOperand (Bool.eq_false_iff.mpr fun e => h (hlegal.mp e))
  · rintro u rfl rfl rfl hn
    exact checkOperands_rangeError (hlegal.mpr h) (by rwa [hn])
  · rintro u rfl rfl rfl hn
    exact checkOperands_empty (hlegal.mpr h) (by rwa [hn]) (hn.trans hzero)

/-! ### The batches of an issue -/

section
variable {size : Nat}

theorem batchesOf_nil (hsize : 0 < size) : batchesOf size [] = [] := by
  have hzero : (0 + size - 1) / size = 0 := Nat.div_eq_of_lt (by omega)
  simp only [batchesOf, List.length_nil, hzero]
  rfl

/-- A full batch is the first of its batches (R284). -/
theorem batchesOf_append {b : List Byte} (hsize : 0 < size) (hb : b.length = size) (wire : List Byte) :
    batchesOf size (b ++ wire) = b :: batchesOf size wire := by
  have hcount : ((b ++ wire).length + size - 1) / size = (wire.length + size - 1) / size + 1 := by
    rw [List.length_append, hb, ← Nat.add_div_right _ hsize]
    congr 1
    omega
  have hnext (i : Nat) : (b ++ wire).drop ((i + 1) * size) = wire.drop (i * size) := by
    rw [Nat.succ_mul, Nat.add_comm, ← List.drop_drop, List.drop_left' hb]
  simp only [batchesOf, hcount, List.range_succ_eq_map, List.map_cons, List.map_map, Function.comp_def, hnext,
    Nat.succ_eq_add_one]
  rw [Nat.zero_mul, List.drop_zero, ← hb, List.take_left']
  rfl

/-- What fits one batch is one batch (R284). -/
theorem batchesOf_of_fits {wire : List Byte} (hne : wire ≠ []) (hfits : wire.length ≤ size) :
    batchesOf size wire = [wire] := by
  have hpos := List.length_pos_iff.mpr hne
  have hone : (wire.length + size - 1) / size = 1 := by
    rw [Nat.div_eq_iff (by omega)]
    omega
  simp only [batchesOf, hone, List.range_one, List.map_cons, List.map_nil, Nat.zero_mul, List.drop_zero,
    List.take_of_length_le hfits]

/-- The batches are the wire's bytes in order, none longer than a full one (R284). -/
theorem batchesOf_spec (hsize : 0 < size) (wire : List Byte) :
    (batchesOf size wire).flatten = wire ∧ ∀ b ∈ batchesOf size wire, b.length ≤ size := by
  induction hn : wire.length using Nat.strong_induction_on generalizing wire with
  | _ n ih =>
    by_cases hfits : wire.length ≤ size
    · rcases eq_or_ne wire [] with rfl | hne
      · simp [batchesOf_nil hsize]
      · simp [batchesOf_of_fits hne hfits, hfits]
    · have htake : (wire.take size).length = size := by
        rw [List.length_take]
        omega
      have hsplit := batchesOf_append hsize htake (wire.drop size)
      obtain ⟨hflat, hlen⟩ := ih (wire.drop size).length (by rw [List.length_drop]; omega) _ rfl
      rw [List.take_append_drop] at hsplit
      rw [hsplit, List.flatten_cons, hflat, List.take_append_drop]
      exact ⟨rfl, List.forall_mem_cons.mpr ⟨htake.le, hlen⟩⟩

theorem batchesOf_length (wire : List Byte) : (batchesOf size wire).length = (wire.length + size - 1) / size := by
  simp [batchesOf]
end

/-! ### Writing the batches -/

/-- The state once the transport has been used: the draws still to come, and the events. -/
def portsUsed (tx : List WriteAnswer) (rx : List ReadAnswer) (ev : List PortEvent) (s : State) : State :=
  { s with txFeed := tx, rxFeed := rx, trace := s.trace ++ ev }

theorem portsUsed_portsUsed (tx tx' : List WriteAnswer) (rx rx' : List ReadAnswer) (ev ev' : List PortEvent)
    (s : State) : portsUsed tx' rx' ev' (portsUsed tx rx ev s) = portsUsed tx' rx' (ev ++ ev') s := by
  simp only [portsUsed, List.append_assoc]

theorem portsUsed_nil (s : State) : portsUsed s.txFeed s.rxFeed [] s = s := by
  simp only [portsUsed, List.append_nil]

/-- What is left of an issue when these batches are still to be written: each is written while the writes before it
are accepted (R284). -/
def writeBatches (bs : List (List Byte)) (s : State) : State :=
  match bs with
  | [] => afterIssue s
  | b :: rest =>
    match transportWrite b s with
    | (true, s1) => writeBatches rest s1
    | (false, s1) => finishTxn .transportError s1

theorem writeBatches_cons_ok {s : State} {tx : List WriteAnswer} (htx : s.txFeed = .ok :: tx) (b : List Byte)
    (bs : List (List Byte)) :
    writeBatches (b :: bs) s = writeBatches bs (portsUsed tx s.rxFeed [.wrote b] s) := by
  rw [writeBatches, transportWrite_ok htx]
  rfl

theorem writeBatches_ok (bs : List (List Byte)) {s : State} {tx : List WriteAnswer}
    (htx : s.txFeed = List.replicate bs.length .ok ++ tx) :
    writeBatches bs s = afterIssue (portsUsed tx s.rxFeed (bs.map .wrote) s) := by
  induction bs generalizing s with
  | nil =>
    rw [List.map_nil, ← show s.txFeed = tx from htx, portsUsed_nil]
    rfl
  | cons b bs ih =>
    rw [writeBatches_cons_ok htx, ih rfl, portsUsed_portsUsed]
    rfl

/-- The write of batch `n` errs: the batches before it are written, and the call is over (R284, R359). -/
theorem writeBatches_tErr {bs : List (List Byte)} {n k : Nat} {s : State} {tx : List WriteAnswer}
    (hn : n < bs.length) (htx : s.txFeed = List.replicate n .ok ++ .tErr k :: tx) :
    writeBatches bs s = finishTxn .transportError
      (portsUsed tx s.rxFeed ((bs.take n).map .wrote ++ [.writeFailed ((bs.getD n []).take k)]) s) := by
  induction bs generalizing n s with
  | nil => exact absurd hn (Nat.not_lt_zero n)
  | cons b bs ih =>
    cases n with
    | zero =>
      rw [writeBatches, transportWrite_tErr htx]
      rfl
    | succ n =>
      rw [writeBatches_cons_ok htx, ih (Nat.lt_of_succ_lt_succ hn) rfl, portsUsed_portsUsed]
      rfl

/-! ### The issue of a call -/

/-- The transaction at another place of its issue: the records put so far, and the batch (R284). -/
def atRecord (p : Nat) (b : List Byte) (s : State) : State := s.setTxn { s.txn with put := p, batch := b }

theorem transportWrite_atRecord (bs : List Byte) (p : Nat) (b : List Byte) (s : State) :
    transportWrite bs (atRecord p b s) = ((transportWrite bs s).1, atRecord p b (transportWrite bs s).2) := by
  have hnext : nextWrite (atRecord p b s) = nextWrite s := rfl
  unfold transportWrite
  rw [hnext]
  split <;> rfl

/-- A transaction in phase Issue whose batch holds whole records and fits (R284). -/
structure Issuing (s : State) : Prop where
  ctl : s.ctl = .reg
  phase : s.txn.phase = .issue
  size : 8 ≤ s.cfg.txBatchBytes
  sizeWhole : s.cfg.txBatchBytes % 8 = 0
  batchWhole : s.txn.batch.length % 8 = 0
  batchFits : s.txn.batch.length ≤ s.cfg.txBatchBytes

section
variable {s : State} (h : Issuing s)
include h

/-- A batch that a record does not fit is full. -/
theorem Issuing.batch_full (hfull : s.cfg.txBatchBytes < s.txn.batch.length + 8) :
    s.txn.batch.length = s.cfg.txBatchBytes := by
  obtain ⟨-, -, -, hsize, hwhole, hfits⟩ := h
  omega

theorem Issuing.of_fits (hfits : s.txn.batch.length + 8 ≤ s.cfg.txBatchBytes) (r : Rec) :
    Issuing (putRecord r s) := by
  have hlen : (s.txn.batch ++ recBytes r).length = s.txn.batch.length + 8 := List.length_append
  refine ⟨h.ctl, h.phase, h.size, h.sizeWhole, ?_, hlen.trans_le hfits⟩
  exact (congrArg (· % 8) hlen).trans ((Nat.add_mod_right _ 8).trans h.batchWhole)

/-- The batch written, the record starts the next one. -/
theorem Issuing.of_written (e : PortEvent) (r : Rec) :
    Issuing (atRecord (s.txn.put + 1) (recBytes r) ((tookWrite s).addEvent e)) :=
  ⟨h.ctl, h.phase, h.size, h.sizeWhole, congrArg (· % 8) (recBytes_length r), h.size⟩
end

theorem transportWrite_true {bs : List Byte} {s t : State} (h : transportWrite bs s = (true, t)) :
    t = (tookWrite s).addEvent (.wrote bs) := by
  rcases transportWrite_cases bs s with ⟨-, e⟩ | ⟨_, -, e⟩ <;> rw [e] at h <;> cases h
  rfl

theorem transportWrite_false {bs : List Byte} {s t : State} (h : transportWrite bs s = (false, t)) :
    ∃ k, t = (tookWrite s).addEvent (.writeFailed (bs.take k)) := by
  rcases transportWrite_cases bs s with ⟨-, e⟩ | ⟨k, -, e⟩ <;> rw [e] at h <;> cases h
  exact ⟨k, rfl⟩

/-- The rest of an issue, record by record, writes the batches of the bytes not yet written (R284). -/
theorem Issuing.goes_batches {rs : List Rec} {s : State} (h : Issuing s) (hrecs : s.txn.recs.drop s.txn.put = rs)
    (hne : s.txn.batch ++ rs.flatMap recBytes ≠ []) :
    ∃ k ≤ rs.length + 1, ∃ p b, Goes k s
      (writeBatches (batchesOf s.cfg.txBatchBytes (s.txn.batch ++ rs.flatMap recBytes)) (atRecord p b s)) := by
  induction rs generalizing s with
  | nil =>
    rw [List.flatMap_nil, List.append_nil] at hne ⊢
    have hnone : s.txn.recs[s.txn.put]? = none := List.getElem?_eq_none (List.drop_eq_nil_iff.mp hrecs)
    have hflush : flushBatch s = writeBatches [s.txn.batch] s := if_neg hne
    rw [batchesOf_of_fits hne h.batchFits]
    exact ⟨1, le_rfl, s.txn.put, s.txn.batch, goes_flush h.ctl h.phase hnone hflush⟩
  | cons r rs ih =>
    obtain ⟨hget, hdrop⟩ : s.txn.recs[s.txn.put]? = some r ∧ s.txn.recs.drop (s.txn.put + 1) = rs := by
      rw [← List.head?_drop, ← List.tail_drop, hrecs]
      exact ⟨rfl, rfl⟩
    have hbytes (b : List Byte) : b ++ recBytes r ++ rs.flatMap recBytes ≠ [] := by simp [recBytes]
    rw [List.flatMap_cons, List.length_cons]
    rcases issueRecord_cases r s with ⟨hfits, e⟩ | ⟨hfull, ⟨s1, hw, e⟩ | ⟨s1, hw, e⟩⟩
    · obtain ⟨k, hk, p, b, hgo⟩ := ih (h.of_fits hfits r) hdrop (hbytes s.txn.batch)
      rw [← List.append_assoc]
      exact ⟨k + 1, by omega, p, b, (goes_issue h.ctl h.phase hget e).cons hgo⟩
    · obtain ⟨k, hk, p, b, hgo⟩ := ih (h.of_written (.wrote s.txn.batch) r) hdrop (hbytes [])
      rw [batchesOf_append (Nat.lt_of_lt_of_le (by decide) h.size) (h.batch_full hfull)]
      refine ⟨k + 1, by omega, p, b, (goes_issue h.ctl h.phase hget e).cons ?_⟩
      rw [writeBatches, transportWrite_atRecord, hw, transportWrite_true hw]
      exact hgo
    · rw [batchesOf_append (Nat.lt_of_lt_of_le (by decide) h.size) (h.batch_full hfull)]
      refine ⟨1, by omega, s.txn.put, s.txn.batch, goes_issue h.ctl h.phase hget (e.trans ?_)⟩
      obtain ⟨k, rfl⟩ := transportWrite_false hw
      rw [writeBatches, transportWrite_atRecord, hw]
      rfl

/-! ### A checked call -/

/-- The bytes of a call's records (R282, R283). -/
def callWire (t : Txn) : List Byte := (txnRecs t).flatMap recBytes

theorem callWire_startRead (addr cnt : Nat) (region : Half) (ch : Nat) (cont : Cont) (s : State) :
    callWire (startRead addr cnt region ch cont s).txn = readWire addr cnt region ch :=
  List.flatMap_map _ _ _

theorem callWire_startWrite (addr : Nat) (data : List Byte) (region : Half) (ch : Nat) (cont : Cont) (s : State) :
    callWire (startWrite addr data region ch cont s).txn = writeWire addr data region ch :=
  List.flatMap_map _ _ _

theorem readWire_length (addr cnt : Nat) (region : Half) (ch : Nat) :
    (readWire addr cnt region ch).length = (pairs addr cnt).length * 8 := by
  simp [readWire, List.length_flatMap, recBytes_length]

theorem writeWire_length (addr : Nat) (data : List Byte) (region : Half) (ch : Nat) :
    (writeWire addr data region ch).length = (pairs addr data.length).length * 8 := by
  simp [writeWire, List.length_flatMap, recBytes_length]

/-- A range of at least one byte has at least one pair and no more pairs than bytes (R283). -/
theorem pairs_length_bounds {addr cnt : Nat} (hcnt : 0 < cnt) :
    0 < (pairs addr cnt).length ∧ (pairs addr cnt).length ≤ cnt := by
  rw [pairs_length]
  omega

/-- The transaction of a checked call at a place of its issue (R281, R284). -/
def issued (p : Nat) (b : List Byte) (t : Txn) : Txn :=
  { t with
    phase := .issue, recs := txnRecs t, put := p, batch := b
    out := if t.isWrite then [] else List.replicate t.cnt 0
    got := if t.isWrite then [] else List.replicate t.cnt false }

/-- A call of at least one byte that has begun and whose operands pass the checks of R281. -/
structure Checked (s : State) : Prop where
  ctl : s.ctl = .reg
  phase : s.txn.phase = .idle
  region : regionLegal s.txn.region = true
  ch : channelLegal s.txn.ch = true
  range : s.txn.addr + s.txn.cnt ≤ 4096
  cnt : 0 < s.txn.cnt
  size : 8 ≤ s.cfg.txBatchBytes
  sizeWhole : s.cfg.txBatchBytes % 8 = 0

section
variable {s : State} (h : Checked s)
include h

theorem Checked.checkOperands : checkOperands s = s.setTxn (issued 0 [] s.txn) := by
  rcases checkOperands_cases s with ⟨hill, -⟩ | ⟨-, -, hover, -⟩ | ⟨-, -, -, hzero, -⟩ | ⟨-, -, -, -, e⟩
  · simp [h.region, h.ch] at hill
  · exact absurd h.range (Nat.not_le.mpr hover)
  · exact absurd h.cnt (by omega)
  · exact e

/-- A checked call writes its records' bytes in batches (R281, R284). -/
theorem Checked.goes_batches :
    ∃ k ≤ s.txn.cnt + 2, ∃ p b, Goes k s
      (writeBatches (batchesOf s.cfg.txBatchBytes (callWire s.txn)) (s.setTxn (issued p b s.txn))) := by
  let s1 := s.setTxn (issued 0 [] s.txn)
  obtain ⟨hpos, hle⟩ := pairs_length_bounds (addr := s.txn.addr) h.cnt
  have hlen : (txnRecs s.txn).length = (pairs s.txn.addr s.txn.cnt).length := List.length_map _
  have hne : [] ++ (txnRecs s.txn).flatMap recBytes ≠ [] := by
    rw [List.nil_append, ← List.length_pos_iff]
    simp only [List.length_flatMap, recBytes_length, List.map_const', List.sum_replicate, smul_eq_mul]
    omega
  have hissuing : Issuing s1 := ⟨h.ctl, rfl, h.size, h.sizeWhole, rfl, Nat.zero_le _⟩
  obtain ⟨k, hk, p, b, hgo⟩ := hissuing.goes_batches (rs := txnRecs s.txn) rfl hne
  exact ⟨k + 1, by omega, p, b, (goes_check h.ctl h.phase h.checkOperands).cons hgo⟩

/-- Every write is accepted: the issue is over (R284). -/
theorem Checked.goes_written {tx : List WriteAnswer} :
    let batches := batchesOf s.cfg.txBatchBytes (callWire s.txn)
    s.txFeed = List.replicate batches.length .ok ++ tx →
    ∃ k ≤ s.txn.cnt + 2, ∃ p b, Goes k s
      (afterIssue (portsUsed tx s.rxFeed (batches.map .wrote) (s.setTxn (issued p b s.txn)))) := by
  intro batches htx
  obtain ⟨k, hk, p, b, hgo⟩ := h.goes_batches
  rw [writeBatches_ok (s := s.setTxn (issued p b s.txn)) batches htx] at hgo
  exact ⟨k, hk, p, b, hgo⟩

/-- The write of batch `n` errs: the call ends with TransportError (R284, R359). -/
theorem Checked.goes_writeFailed {n j : Nat} {tx : List WriteAnswer} (hcont : s.txn.cont = .host) :
    let batches := batchesOf s.cfg.txBatchBytes (callWire s.txn)
    n < batches.length → s.txFeed = List.replicate n .ok ++ .tErr j :: tx →
    ∃ k ≤ s.txn.cnt + 3, ∃ out : List Byte, out.length = s.txn.cnt ∧ Goes k s
      (opEnded tx s.rxFeed 1 ((batches.take n).map .wrote ++ [.writeFailed ((batches.getD n []).take j)])
        [if s.txn.isWrite then .regWrite .transportError else .regRead .transportError out] s) := by
  intro batches hn htx
  obtain ⟨k, hk, p, b, hgo⟩ := h.goes_batches
  rw [writeBatches_tErr (s := s.setTxn (issued p b s.txn)) hn htx] at hgo
  exact ⟨k + 1, by omega, readOutput .transportError (issued p b s.txn) s.draws, readOutput_tErr_length _ _,
    hgo.trans (goes_finish_host h.ctl rfl hcont)⟩
end

/-- The fuel of an operation covers its bytes, the reads its draws bring, and its phases (R175). -/
theorem cost_le_dispatchBound {s : State} {bss : List (List Byte)} {rest : List ReadAnswer}
    (hfeed : s.rxFeed = bss.map .bytes ++ rest) : s.txn.cnt + readsCost bss + 64 ≤ dispatchBound s := by
  have hle := readsCost_le_feed bss rest
  rw [← hfeed] at hle
  unfold dispatchBound
  omega

theorem acceptsWrites_feed {n : Nat} {s : State} (h : acceptsWrites n s = true) :
    s.txFeed = List.replicate n .ok ++ s.txFeed.drop n := by
  simp only [acceptsWrites, Bool.and_eq_true, decide_eq_true_eq, List.all_eq_true] at h
  obtain ⟨hlen, hall⟩ := h
  have htake : s.txFeed.take n = List.replicate n .ok :=
    List.eq_replicate_iff.mpr ⟨List.length_take_of_le hlen, hall⟩
  rw [← htake, List.take_append_drop]

/-! ### REG_WRITE -/

section
variable {addr ch : Nat} {data : List Byte} {region : Half} {s : State} (hwf : s.cfg.wf)
  (hr : regionLegal region = true) (hch : channelLegal ch = true) (hpos : 0 < data.length)
  (hrange : addr + data.length ≤ 4096)
include hwf hr hch hpos hrange

theorem checked_startWrite (cont : Cont) : Checked (startWrite addr data region ch cont s) := by
  obtain ⟨-, -, -, -, hsize, hwhole⟩ := hwf
  exact ⟨rfl, rfl, hr, hch, hrange, hpos, hsize, hwhole⟩

/-- A write call whose writes are accepted (R295). -/
theorem exec_regWrite_ok {tx : List WriteAnswer} :
    let batches := batchesOf s.cfg.txBatchBytes (writeWire addr data region ch)
    s.txFeed = List.replicate batches.length .ok ++ tx →
    exec (.regWrite addr data region ch) s =
      .next (opEnded tx s.rxFeed 0 (batches.map .wrote) [.regWrite .ok] s) := by
  intro batches htx
  have hc := checked_startWrite hwf hr hch hpos hrange .host
  have hgo := hc.goes_written (tx := tx)
  rw [callWire_startWrite] at hgo
  obtain ⟨k, hk, p, b, hgo⟩ := hgo htx
  have hfuel := cost_le_dispatchBound (s := startWrite addr data region ch .host s) (bss := []) (List.nil_append _).symm
  have hend := hgo.trans (goes_finish_host rfl rfl rfl)
  exact congrArg Host.Outcome.next (runOp_of_goes hend rfl (by omega))

/-- A TErr on the write of batch `n` ends a write call (R284, R359). -/
theorem exec_regWrite_writeFailed {n j : Nat} {tx : List WriteAnswer} :
    let batches := batchesOf s.cfg.txBatchBytes (writeWire addr data region ch)
    n < batches.length → s.txFeed = List.replicate n .ok ++ .tErr j :: tx →
    exec (.regWrite addr data region ch) s = .next
      (opEnded tx s.rxFeed 1 ((batches.take n).map .wrote ++ [.writeFailed ((batches.getD n []).take j)])
        [.regWrite .transportError] s) := by
  intro batches hn htx
  have hgo := (checked_startWrite hwf hr hch hpos hrange .host).goes_writeFailed (n := n) (j := j) (tx := tx) rfl
  rw [callWire_startWrite] at hgo
  obtain ⟨k, hk, out, -, hgo⟩ := hgo hn htx
  have hfuel := cost_le_dispatchBound (s := startWrite addr data region ch .host s) (bss := []) (List.nil_append _).symm
  exact congrArg Host.Outcome.next (runOp_of_goes hgo rfl (by omega))
end

/-- Settles O52: every batch is written, and the batches are the wire. -/
theorem regWriteResult : Obligations.RegWriteResult := by
  intro addr data region ch s hwf hr hch hne hrange wire batches hacc
  have hsize : 0 < s.cfg.txBatchBytes := by
    obtain ⟨-, -, -, -, hsize, -⟩ := hwf
    omega
  exact ⟨exec_regWrite_ok hwf hr hch (List.length_pos_iff.mpr hne) hrange (acceptsWrites_feed hacc),
    batchesOf_spec hsize wire⟩

/-! ### REG_READ -/

/-- A read at the start of its harvest, after these events of its issue (R290). -/
def harvesting (addr cnt : Nat) (region : Half) (ch p : Nat) (tx : List WriteAnswer) (ev : List PortEvent)
    (s : State) : State :=
  { s with
    ctl := .reg, txFeed := tx, trace := s.trace ++ ev ++ [.delayed Lit.regRespDelayMs]
    txn := { Txn.none with
      phase := .harvest, addr := addr, cnt := cnt, region := region, ch := ch, put := p
      recs := (pairs addr cnt).map (readRec region ch)
      out := List.replicate cnt 0, got := List.replicate cnt false } }

section
variable {addr cnt : Nat} (region : Half) (ch p : Nat) (tx : List WriteAnswer) (ev : List PortEvent) (s : State)

theorem harvestStart_harvesting (hpos : 0 < cnt) : HarvestStart (harvesting addr cnt region ch p tx ev s) :=
  ⟨rfl, rfl, hpos, rfl, rfl, rfl, rfl, rfl⟩

theorem trace_afterReads_harvesting (bss : List (List Byte)) (rest : List ReadAnswer) :
    (afterReads bss rest (harvesting addr cnt region ch p tx ev s)).trace = s.trace ++ (ev ++ harvestEvents bss) := by
  simp [afterReads, harvesting, harvestEvents, Lit.regRespDelayMs, Lit.rxBufBytes]
end

/-- An output byte that a response matched keeps its value after a TransportError (R290). -/
theorem readOutput_tErr_getD {t : Txn} {k : Nat} (hk : k < t.cnt) (hgot : t.got.getD k false = true) (draw : Nat) :
    (readOutput .transportError t draw).getD k 0 = t.out.getD k 0 := by
  simp only [readOutput, List.getD_eq_getElem?_getD, List.getElem?_map, List.getElem?_range hk, Option.map_some,
    Option.getD_some] at hgot ⊢
  rw [if_pos hgot]

section
variable {addr cnt ch : Nat} {region : Half} {s : State} (hwf : s.cfg.wf) (hr : regionLegal region = true)
  (hch : channelLegal ch = true) (hpos : 0 < cnt) (hrange : addr + cnt ≤ 4096)
include hwf hr hch hpos hrange

theorem checked_startRead (cont : Cont) : Checked (startRead addr cnt region ch cont s) := by
  obtain ⟨-, -, -, -, hsize, hwhole⟩ := hwf
  exact ⟨rfl, rfl, hr, hch, hrange, hpos, hsize, hwhole⟩

/-- A read call whose writes are accepted comes to its harvest (R290). -/
theorem goes_harvesting {tx : List WriteAnswer} :
    let batches := batchesOf s.cfg.txBatchBytes (readWire addr cnt region ch)
    s.txFeed = List.replicate batches.length .ok ++ tx →
    ∃ k ≤ cnt + 3, ∃ p, Goes k (startRead addr cnt region ch .host s)
      (harvesting addr cnt region ch p tx (batches.map .wrote) s) := by
  intro batches htx
  have hgo := (checked_startRead hwf hr hch hpos hrange .host).goes_written (tx := tx)
  rw [callWire_startRead] at hgo
  obtain ⟨k, hk, p, b, hgo⟩ := hgo htx
  exact ⟨k + 1, Nat.succ_le_succ hk, p, hgo.trans (goes_delay rfl rfl)⟩

/-- A read call that runs through its harvest (R288, R289). -/
theorem exec_regRead_harvested {tx : List WriteAnswer} {bss : List (List Byte)} {rest : List ReadAnswer} :
    let batches := batchesOf s.cfg.txBatchBytes (readWire addr cnt region ch)
    let u := harvested s.cfg.frameOrder addr cnt ch bss
    s.txFeed = List.replicate batches.length .ok ++ tx → s.rxFeed = bss.map .bytes ++ rest →
    harvestEnds s.cfg addr cnt ch bss →
    exec (.regRead addr cnt region ch) s = .next (opEnded tx rest 0 (batches.map .wrote ++ harvestEvents bss)
      [.regRead (if allGot u then .ok else .incomplete) u.out] s) := by
  intro batches u htx hrx hends
  obtain ⟨k, hk, p, hgo⟩ := goes_harvesting hwf hr hch hpos hrange htx
  obtain ⟨l, hl, hread⟩ :=
    (harvestStart_harvesting region ch p tx (batches.map .wrote) s hpos).goes_end bss hrx hends
  have hfuel := cost_le_dispatchBound (s := startRead addr cnt region ch .host s) hrx
  have hcnt : (startRead addr cnt region ch .host s).txn.cnt = cnt := rfl
  have hend := (hgo.trans hread).trans (goes_finish_host rfl rfl rfl)
  refine congrArg Host.Outcome.next (runOp_of_goes ?_ rfl (k := k + l + 1) (by omega))
  rw [opEnded, ← trace_afterReads_harvesting region ch p tx (batches.map .wrote) s bss rest]
  have hu : allGot u = allGot (matched (harvesting addr cnt region ch p tx (batches.map .wrote) s) bss) := rfl
  rw [hu]
  cases hgot : allGot (matched (harvesting addr cnt region ch p tx (batches.map .wrote) s) bss) <;>
    rw [hgot] at hend <;> exact hend

/-- A read call that errs in its harvest (R288, R290, R359). -/
theorem exec_regRead_tErr {tx : List WriteAnswer} {bss : List (List Byte)} {rest : List ReadAnswer} :
    let batches := batchesOf s.cfg.txBatchBytes (readWire addr cnt region ch)
    let u := harvested s.cfg.frameOrder addr cnt ch bss
    s.txFeed = List.replicate batches.length .ok ++ tx → s.rxFeed = bss.map .bytes ++ .tErr :: rest →
    bss.length < s.cfg.harvestReads → harvestOpen s.cfg.frameOrder addr cnt ch bss →
    exec (.regRead addr cnt region ch) s =
      .next (opEnded tx rest 1 (batches.map .wrote ++ harvestEvents bss ++ [.didRead .tErr])
        [.regRead .transportError (readOutput .transportError u s.draws)] s) := by
  intro batches u htx hrx hlen hopen
  obtain ⟨k, hk, p, hgo⟩ := goes_harvesting hwf hr hch hpos hrange htx
  obtain ⟨l, hl, hread⟩ :=
    (harvestStart_harvesting region ch p tx (batches.map .wrote) s hpos).goes_tErr bss hrx hlen hopen
  have hfuel := cost_le_dispatchBound (s := startRead addr cnt region ch .host s) hrx
  have hcnt : (startRead addr cnt region ch .host s).txn.cnt = cnt := rfl
  refine congrArg Host.Outcome.next (runOp_of_goes ?_ rfl (k := k + l + 1) (by omega))
  rw [opEnded, ← List.append_assoc s.trace,
    ← trace_afterReads_harvesting region ch p tx (batches.map .wrote) s bss (.tErr :: rest)]
  have hu : readOutput .transportError u s.draws = readOutput .transportError
    (afterReads bss (.tErr :: rest) (harvesting addr cnt region ch p tx (batches.map .wrote) s)).txn s.draws := by
    simp only [readOutput, u, (harvested_range _ _ _ _ _).2]
    rfl
  have hend := (hgo.trans hread).trans (goes_finish_host rfl rfl rfl)
  rw [hu]
  exact hend

/-- A TErr on the write of batch `n` ends a read call (R284, R359). -/
theorem exec_regRead_writeFailed {n j : Nat} {tx : List WriteAnswer} :
    let batches := batchesOf s.cfg.txBatchBytes (readWire addr cnt region ch)
    n < batches.length → s.txFeed = List.replicate n .ok ++ .tErr j :: tx →
    ∃ out : List Byte, out.length = cnt ∧ exec (.regRead addr cnt region ch) s = .next
      (opEnded tx s.rxFeed 1 ((batches.take n).map .wrote ++ [.writeFailed ((batches.getD n []).take j)])
        [.regRead .transportError out] s) := by
  intro batches hn htx
  have hgo := (checked_startRead hwf hr hch hpos hrange .host).goes_writeFailed (n := n) (j := j) (tx := tx) rfl
  rw [callWire_startRead] at hgo
  obtain ⟨k, hk, out, hout, hgo⟩ := hgo hn htx
  have hfuel := cost_le_dispatchBound (s := startRead addr cnt region ch .host s) (bss := []) (List.nil_append _).symm
  exact ⟨out, hout, congrArg Host.Outcome.next (runOp_of_goes hgo rfl (by omega))⟩
end

theorem exec_regRead8 (a : Nat) (region : Half) (s : State) :
    exec (.regRead8 a region) s = exec (.regRead a 1 region s.cfg.regCh) s := rfl

/-- Settles O51: the call runs through its harvest, and the batches are the wire. -/
theorem regReadResult : Obligations.RegReadResult := by
  intro addr cnt region ch s bss rest hwf hr hch hpos hrange wire batches hacc hrx hends u t
  have hsize : 0 < s.cfg.txBatchBytes := by
    obtain ⟨-, -, -, -, hsize, -⟩ := hwf
    omega
  have hread : exec (.regRead addr cnt region ch) s = .next t := by
    rw [exec_regRead_harvested hwf hr hch hpos hrange (acceptsWrites_feed hacc) hrx hends, opEnded,
      ← List.append_assoc]
    rfl
  refine ⟨hread, ?_, batchesOf_spec hsize wire⟩
  rintro rfl rfl
  rwa [exec_regRead8]

/-- Settles O53: a write or a read that errs ends the call, and the matched bytes are those of the harvest. -/
theorem regTransportErrors : Obligations.RegTransportErrors := by
  refine ⟨exec_regRead8, fun addr cnt region ch data s hwf hr hch hpos hrange hdata => ?_⟩
  subst hdata
  intro rds wrs
  refine ⟨fun n k rest hn htx => ?_, fun bss rest hacc hrx hlen hopen => ?_⟩
  · have hnw : n < wrs.length := by
      rw [batchesOf_length, writeWire_length, ← readWire_length addr data.length region ch, ← batchesOf_length]
      exact hn
    obtain ⟨out, hout, hread⟩ := exec_regRead_writeFailed hwf hr hch hpos hrange hn htx
    have hwrite := exec_regWrite_writeFailed hwf hr hch hpos hrange hnw htx
    simp only [opEnded, ← List.append_assoc] at hread hwrite
    exact ⟨out, hout, hread, hwrite⟩
  · intro u
    have hread := exec_regRead_tErr hwf hr hch hpos hrange (acceptsWrites_feed hacc) hrx hlen hopen
    simp only [opEnded, ← List.append_assoc] at hread
    have hcnt := (harvested_range s.cfg.frameOrder addr data.length ch bss).2
    exact ⟨_, (readOutput_tErr_length _ _).trans hcnt,
      fun k hk hgot => readOutput_tErr_getD (hk.trans_eq hcnt.symm) hgot _, hread⟩

/-! ## SESSION_INIT -/

/-! ### The ends of its operations -/

/-- The session with its end, the free values drawn and the outcome (R300, R344). -/
def sessionEnded (x : Session) (n : Nat) (s : State) : State :=
  { s with
    session := x, ctl := .idle, txn := Txn.none, draws := s.draws + n, replies := s.replies ++ [.session x] }

theorem endSession_eq (x : Session) (s : State) :
    endSession x s = sessionEnded x (if s.txn.result = .transportError then 1 else 0) s := rfl

/-- What an operation of SESSION_INIT that is not Ok ends it with (R301-R303). -/
def FailsWith (cont : Cont) (code : FatalCode) : Prop :=
  ∀ s : State, s.txn.cont = cont → s.txn.result ≠ .ok → finishPhase s = endSession (.fatal code) s

theorem failsWith_sessVersion : FailsWith .sessVersion .versionReadFailed := fun s hcont hres => by
  simp only [finishPhase, hcont, if_pos hres]

theorem failsWith_sessFilterRead : FailsWith .sessFilterRead .filterClearFailure := fun s hcont hres => by
  simp only [finishPhase, hcont, if_pos hres]

theorem failsWith_sessFilterWrite : FailsWith .sessFilterWrite .filterClearFailure := fun s hcont hres => by
  simp only [finishPhase, hcont, if_pos hres]

theorem goes_fails {cont : Cont} {code : FatalCode} (hfail : FailsWith cont code) {s : State} (hc : s.ctl = .reg)
    (hp : s.txn.phase = .done) (hcont : s.txn.cont = cont) (hres : s.txn.result ≠ .ok) :
    Goes 1 s (endSession (.fatal code) s) :=
  hfail s hcont hres ▸ goes_finish hc hp

section
variable {s : State} (hres : s.txn.result = .ok)
include hres

theorem endSession_of_ok (x : Session) : endSession x s = sessionEnded x 0 s := by
  rw [endSession_eq, hres]
  rfl

/-- A version other than 4 ends SESSION_INIT (R301). -/
theorem finishPhase_mismatch (hcont : s.txn.cont = .sessVersion) (hv : firstByte s.txn ≠ 4) :
    finishPhase s = sessionEnded (.fatal .versionMismatch) 0 s := by
  rw [← endSession_of_ok hres]
  simp only [finishPhase, hcont, hres, ne_eq, not_true_eq_false, if_false]
  exact if_pos hv

/-- After version 4 the filter register is read (R301, R302). -/
theorem finishPhase_version (hcont : s.txn.cont = .sessVersion) (hv : firstByte s.txn = 4) :
    finishPhase s = startRead 0x0019 1 0x8000 s.cfg.regCh .sessFilterRead s := by
  simp only [finishPhase, hcont, hres, ne_eq, not_true_eq_false, if_false]
  exact if_neg (not_not_intro hv)

/-- The filter byte is written back with bit 0x10 clear (R302). -/
theorem finishPhase_filterRead (hcont : s.txn.cont = .sessFilterRead) :
    finishPhase s = startWrite 0x0019 [firstByte s.txn &&& 0xEF] 0x8000 s.cfg.regCh .sessFilterWrite s := by
  simp only [finishPhase, hcont, hres, ne_eq, not_true_eq_false, if_false]
  rfl

/-- After the filter write the session is Ready (R302). -/
theorem finishPhase_filterWrite (hcont : s.txn.cont = .sessFilterWrite) :
    finishPhase s = sessionEnded .ready 0 s := by
  rw [← endSession_of_ok hres]
  simp only [finishPhase, hcont, hres, ne_eq, not_true_eq_false, if_false]
end

/-! ### A read of SESSION_INIT -/

/-- A read of one byte on `REG_CH` that SESSION_INIT can make: its record, and the code its failure ends with
(R301-R303). -/
structure SessionRead (a : Nat) (region : Half) (cont : Cont) (code : FatalCode) (bytes : List Byte) (s : State) :
    Prop where
  legal : regionLegal region = true
  ch : channelLegal s.cfg.regCh = true
  addr : a < 4096
  size : 8 ≤ s.cfg.txBatchBytes
  wire : readWire a 1 region s.cfg.regCh = bytes
  fails : FailsWith cont code

section
variable {a : Nat} {region : Half} {cont : Cont} {code : FatalCode} {bytes : List Byte} {s : State}
  (h : SessionRead a region cont code bytes s) {tx : List WriteAnswer}
include h

/-- Its write errs (R303, R359). -/
theorem SessionRead.goes_writeFailed {k : Nat} (htx : s.txFeed = .tErr k :: tx) :
    Goes 4 (startRead a 1 region s.cfg.regCh cont s)
      (sessionEnded (.fatal code) 1 (portsUsed tx s.rxFeed [.writeFailed (bytes.take k)] s)) := by
  rw [← h.wire, readWire_one]
  have hgo := (oneRecord_startRead h.legal h.ch h.addr h.size cont).goes_failed htx
  exact hgo.trans (goes_fails h.fails rfl rfl rfl nofun)

variable (htx : s.txFeed = .ok :: tx) {bss : List (List Byte)} {rx : List ReadAnswer}
include htx

/-- A read of its harvest errs (R303, R359). -/
theorem SessionRead.goes_readFailed (hrx : s.rxFeed = bss.map .bytes ++ .tErr :: rx)
    (hlen : bss.length < s.cfg.harvestReads) (hopen : harvestOpen s.cfg.frameOrder a 1 s.cfg.regCh bss) :
    ∃ k ≤ readsCost bss + 6, Goes k (startRead a 1 region s.cfg.regCh cont s)
      (sessionEnded (.fatal code) 1
        (portsUsed tx rx (.wrote bytes :: harvestEvents bss ++ [.didRead .tErr]) s)) := by
  obtain ⟨k, hk, hread⟩ := goes_read_tErr h.legal h.ch h.addr h.size htx cont hrx hlen hopen
  refine ⟨k + 1, by omega, ?_⟩
  rw [← h.wire, portsUsed, ← List.append_assoc, trace_afterReads a region _ cont tx s bss (.tErr :: rx)]
  exact hread.trans (goes_fails h.fails rfl rfl rfl nofun)

variable (hrx : s.rxFeed = bss.map .bytes ++ rx) (hends : harvestEnds s.cfg a 1 s.cfg.regCh bss)
include hrx hends

/-- Its harvest ends with the byte unmatched (R303, R289). -/
theorem SessionRead.goes_incomplete (hgot : (harvested s.cfg.frameOrder a 1 s.cfg.regCh bss).got = [false]) :
    ∃ k ≤ readsCost bss + 6, Goes k (startRead a 1 region s.cfg.regCh cont s)
      (sessionEnded (.fatal code) 0 (portsUsed tx rx (.wrote bytes :: harvestEvents bss) s)) := by
  obtain ⟨k, hk, hread⟩ := goes_read_end h.legal h.ch h.addr h.size htx cont hrx hends
  rw [allGot, hgot] at hread
  refine ⟨k + 1, by omega, ?_⟩
  rw [← h.wire, portsUsed, trace_afterReads a region _ cont tx s bss rx]
  exact hread.trans (goes_fails h.fails rfl rfl rfl nofun)

/-- Its harvest ends with the byte matched: the transaction `t` is done, its result Ok (R289). -/
theorem SessionRead.goes_matched (hgot : (harvested s.cfg.frameOrder a 1 s.cfg.regCh bss).got = [true]) {v : Byte}
    (hout : (harvested s.cfg.frameOrder a 1 s.cfg.regCh bss).out = [v]) :
    ∃ k ≤ readsCost bss + 6, ∃ t : Txn, t.cont = cont ∧ t.result = .ok ∧ firstByte t = v ∧
      Goes k (startRead a 1 region s.cfg.regCh cont s)
        (finishPhase (((portsUsed tx rx (.wrote bytes :: harvestEvents bss) s).setCtl .reg).setTxn t)) := by
  obtain ⟨k, hk, hread⟩ := goes_read_end h.legal h.ch h.addr h.size htx cont hrx hends
  rw [allGot, hgot] at hread
  have hfirst : firstByte (harvested s.cfg.frameOrder a 1 s.cfg.regCh bss) = v := by
    rw [firstByte, hout]
    rfl
  let u := finishTxn .ok (afterReads bss rx (reading a region s.cfg.regCh cont tx s))
  refine ⟨k + 1, by omega, u.txn, rfl, rfl, hfirst, ?_⟩
  rw [← h.wire, portsUsed, trace_afterReads a region _ cont tx s bss rx]
  exact hread.trans (goes_finish rfl rfl)
end

/-! ### The three operations of SESSION_INIT -/

/-- The record of the version read (R301). -/
def versionRecord (ch : Nat) : List Byte := [0, 0, 0, 0, 0x00, 0x08, BitVec.ofNat 8 (0x10 + ch), 0x77]

/-- The record of the filter read (R302). -/
def filterRecord (ch : Nat) : List Byte := [0, 0, 0, 0, 0x80, 0x18, BitVec.ofNat 8 (0x10 + ch), 0x77]

/-- The record of the filter write: only its high byte is enabled (R302). -/
def filterWriteRecord (ch : Nat) (v : Byte) : List Byte :=
  [0, v, 0x00, 0xFF, 0x80, 0x18, BitVec.ofNat 8 (0x20 + ch), 0x77]

theorem writeWire_filter {ch : Nat} (hch : channelLegal ch = true) (v : Byte) :
    writeWire 0x0019 [v] 0x8000 ch = filterWriteRecord ch v := by
  rw [writeWire_one]
  exact recBytes_writeRec rfl hch (by decide) 0x0019 [v]

theorem batchBytes_of_wf {p : Params} (h : p.wf) : 8 ≤ p.txBatchBytes := by
  obtain ⟨-, -, -, -, hsize, -⟩ := h
  exact hsize

section
variable {s : State} (hwf : s.cfg.wf)
include hwf

theorem sessionRead_version :
    SessionRead 0x0008 0x0000 .sessVersion .versionReadFailed (versionRecord s.cfg.regCh) s where
  legal := rfl
  ch := channelLegal_regCh hwf
  addr := by decide
  size := batchBytes_of_wf hwf
  wire := (readWire_one _ _ _).trans (recBytes_readRec rfl (channelLegal_regCh hwf) (by decide))
  fails := failsWith_sessVersion

theorem sessionRead_filter :
    SessionRead 0x0019 0x8000 .sessFilterRead .filterClearFailure (filterRecord s.cfg.regCh) s where
  legal := rfl
  ch := channelLegal_regCh hwf
  addr := by decide
  size := batchBytes_of_wf hwf
  wire := (readWire_one _ _ _).trans (recBytes_readRec rfl (channelLegal_regCh hwf) (by decide))
  fails := failsWith_sessFilterRead

theorem oneRecord_filterWrite (v : Byte) :
    OneRecord (writeRec 0x0019 [v] 0x8000 s.cfg.regCh 0x0018)
      (startWrite 0x0019 [v] 0x8000 s.cfg.regCh .sessFilterWrite s) :=
  oneRecord_startWrite (a := 0x0019) rfl (channelLegal_regCh hwf) (by decide) (batchBytes_of_wf hwf) v _

variable {tx : List WriteAnswer}

/-- The filter byte is written, and the session is Ready (R302). -/
theorem goes_filterWrite_ok (htx : s.txFeed = .ok :: tx) (v : Byte) :
    Goes 4 (startWrite 0x0019 [v] 0x8000 s.cfg.regCh .sessFilterWrite s)
      (sessionEnded .ready 0 (portsUsed tx s.rxFeed [.wrote (filterWriteRecord s.cfg.regCh v)] s)) := by
  rw [← writeWire_filter (channelLegal_regCh hwf), writeWire_one]
  have hend := ((oneRecord_filterWrite hwf v).goes_written htx).trans (goes_finish rfl rfl)
  rw [finishPhase_filterWrite rfl rfl] at hend
  exact hend

/-- The write of the filter byte errs (R302, R303). -/
theorem goes_filterWrite_failed {k : Nat} (htx : s.txFeed = .tErr k :: tx) (v : Byte) :
    Goes 4 (startWrite 0x0019 [v] 0x8000 s.cfg.regCh .sessFilterWrite s)
      (sessionEnded (.fatal .filterClearFailure) 1
        (portsUsed tx s.rxFeed [.writeFailed ((filterWriteRecord s.cfg.regCh v).take k)] s)) := by
  rw [← writeWire_filter (channelLegal_regCh hwf), writeWire_one]
  exact ((oneRecord_filterWrite hwf v).goes_failed htx).trans (goes_fails failsWith_sessFilterWrite rfl rfl rfl nofun)

variable (htx : s.txFeed = .ok :: tx) {bss : List (List Byte)} {rx : List ReadAnswer}
  (hrx : s.rxFeed = bss.map .bytes ++ rx)
include htx hrx

section
variable (hends : harvestEnds s.cfg 0x0008 1 s.cfg.regCh bss)
  (hgot : (harvested s.cfg.frameOrder 0x0008 1 s.cfg.regCh bss).got = [true])
include hends hgot

/-- The version read brings another version than 4 (R301). -/
theorem goes_version_mismatch {v : Byte} (hv : v ≠ 4)
    (hout : (harvested s.cfg.frameOrder 0x0008 1 s.cfg.regCh bss).out = [v]) :
    ∃ k ≤ readsCost bss + 6, Goes k (startRead 0x0008 1 0x0000 s.cfg.regCh .sessVersion s)
      (sessionEnded (.fatal .versionMismatch) 0
        (portsUsed tx rx (.wrote (versionRecord s.cfg.regCh) :: harvestEvents bss) s)) := by
  obtain ⟨k, hk, t, hcont, hres, hfirst, hgo⟩ := (sessionRead_version hwf).goes_matched htx hrx hends hgot hout
  rw [finishPhase_mismatch hres hcont (hfirst.trans_ne hv)] at hgo
  exact ⟨k, hk, hgo⟩

/-- The version read brings version 4, and the filter read begins (R301, R302). -/
theorem goes_version_ok (hout : (harvested s.cfg.frameOrder 0x0008 1 s.cfg.regCh bss).out = [4]) :
    ∃ k ≤ readsCost bss + 6, Goes k (startRead 0x0008 1 0x0000 s.cfg.regCh .sessVersion s)
      (startRead 0x0019 1 0x8000 s.cfg.regCh .sessFilterRead
        (portsUsed tx rx (.wrote (versionRecord s.cfg.regCh) :: harvestEvents bss) s)) := by
  obtain ⟨k, hk, t, hcont, hres, hfirst, hgo⟩ := (sessionRead_version hwf).goes_matched htx hrx hends hgot hout
  rw [finishPhase_version hres hcont hfirst] at hgo
  exact ⟨k, hk, hgo⟩
end

/-- The filter read brings a byte, and its write with bit 0x10 clear begins (R302). -/
theorem goes_filter_ok (hends : harvestEnds s.cfg 0x0019 1 s.cfg.regCh bss)
    (hgot : (harvested s.cfg.frameOrder 0x0019 1 s.cfg.regCh bss).got = [true]) {v : Byte}
    (hout : (harvested s.cfg.frameOrder 0x0019 1 s.cfg.regCh bss).out = [v]) :
    ∃ k ≤ readsCost bss + 6, Goes k (startRead 0x0019 1 0x8000 s.cfg.regCh .sessFilterRead s)
      (startWrite 0x0019 [v &&& 0xEF] 0x8000 s.cfg.regCh .sessFilterWrite
        (portsUsed tx rx (.wrote (filterRecord s.cfg.regCh) :: harvestEvents bss) s)) := by
  obtain ⟨k, hk, t, hcont, hres, rfl, hgo⟩ := (sessionRead_filter hwf).goes_matched htx hrx hends hgot hout
  rw [finishPhase_filterRead hres hcont] at hgo
  exact ⟨k, hk, hgo⟩
end

/-! ### Running SESSION_INIT -/

/-- SESSION_INIT with the receiver reset (R300). -/
def sessionBegun (s : State) : State := s.setRx (resetReceiver s.rx)

/-- SESSION_INIT at the start of its version read (R300, R301). -/
def versionRead (s : State) : State := startRead 0x0008 1 0x0000 s.cfg.regCh .sessVersion (sessionBegun s)

theorem exec_sessionInit_of_goes {s t : State} {k : Nat} (h : Goes k (versionRead s) t) (hidle : t.ctl = .idle)
    (hk : k ≤ dispatchBound (versionRead s)) : exec .sessionInit s = .next t :=
  congrArg Host.Outcome.next (runOp_of_goes h hidle hk)

/-- The fuel covers the reads of two harvests (R175). -/
theorem readsCost_add_le_dispatchBound {s : State} {bss1 bss2 : List (List Byte)} {rest : List ReadAnswer}
    (hfeed : s.rxFeed = bss1.map .bytes ++ (bss2.map .bytes ++ rest)) :
    readsCost bss1 + readsCost bss2 + 64 ≤ dispatchBound s := by
  have hboth := readsCost_le_dispatchBound (s := s) (bss := bss1 ++ bss2) (rest := rest) (by simp [hfeed])
  simpa only [readsCost, List.map_append, List.sum_append] using hboth

/-- Settles O55: the version is read, the filter byte is read, and it is written back. -/
theorem sessionInitReady : Obligations.SessionInitReady := by
  intro s bss1 bss2 rest v hwf _ hacc hrx ch c u1 u2 hends1 hends2 hgot1 hout1 hgot2 hout2
  have htx : s.txFeed = .ok :: .ok :: .ok :: s.txFeed.drop 3 := acceptsWrites_feed hacc
  let s1 := portsUsed (.ok :: .ok :: s.txFeed.drop 3) (bss2.map .bytes ++ rest)
    (.wrote (versionRecord ch) :: harvestEvents bss1) (sessionBegun s)
  let s2 := portsUsed (.ok :: s.txFeed.drop 3) rest (.wrote (filterRecord ch) :: harvestEvents bss2) s1
  obtain ⟨k1, hk1, hversion⟩ := goes_version_ok (s := sessionBegun s) hwf htx hrx hends1 hgot1 hout1
  obtain ⟨k2, hk2, hfilter⟩ := goes_filter_ok (s := s1) hwf rfl rfl hends2 hgot2 hout2
  have hwrite := goes_filterWrite_ok (s := s2) hwf rfl (v &&& 0xEF)
  have hfuel := readsCost_add_le_dispatchBound (s := versionRead s) hrx
  rw [portsUsed_portsUsed, portsUsed_portsUsed, ← List.append_assoc] at hwrite
  have hgo := (hversion.trans hfilter).trans hwrite
  exact exec_sessionInit_of_goes hgo rfl (by omega)

/-- SESSION_INIT ends Fatal with this code, after this use of the ports, and there is no step from there. -/
def SessionFails (s : State) (code : FatalCode) (tx : List WriteAnswer) (rx : List ReadAnswer) (n : Nat)
    (ev : List PortEvent) : Prop :=
  let t := sessionEnded (.fatal code) n (portsUsed tx rx ev (sessionBegun s))
  exec .sessionInit s = .next t ∧ step t = .fault .afterFatal

theorem sessionFails_of_goes {s : State} {code : FatalCode} {tx : List WriteAnswer} {rx : List ReadAnswer} {n k : Nat}
    {ev : List PortEvent}
    (h : Goes k (versionRead s) (sessionEnded (.fatal code) n (portsUsed tx rx ev (sessionBegun s))))
    (hk : k ≤ dispatchBound (versionRead s)) : SessionFails s code tx rx n ev :=
  ⟨exec_sessionInit_of_goes h rfl hk, step_of_halted rfl⟩

section
variable {s : State} (hwf : s.cfg.wf)
include hwf

/-- The write of the version read errs (R301, R303). -/
theorem sessionFails_version_write {k : Nat} {tx : List WriteAnswer} (htx : s.txFeed = .tErr k :: tx) :
    SessionFails s .versionReadFailed tx s.rxFeed 1 [.writeFailed ((versionRecord s.cfg.regCh).take k)] :=
  sessionFails_of_goes ((sessionRead_version (s := sessionBegun s) hwf).goes_writeFailed htx)
    (by unfold dispatchBound; omega)

variable {tx : List WriteAnswer} (htx : s.txFeed = .ok :: tx) {bss1 : List (List Byte)} {rx : List ReadAnswer}
include htx

/-- A read of the version's harvest errs (R301, R303). -/
theorem sessionFails_version_read (hrx : s.rxFeed = bss1.map .bytes ++ .tErr :: rx)
    (hlen : bss1.length < s.cfg.harvestReads) (hopen : harvestOpen s.cfg.frameOrder 0x0008 1 s.cfg.regCh bss1) :
    SessionFails s .versionReadFailed tx rx 1
      (.wrote (versionRecord s.cfg.regCh) :: harvestEvents bss1 ++ [.didRead .tErr]) := by
  obtain ⟨k, hk, hgo⟩ := (sessionRead_version (s := sessionBegun s) hwf).goes_readFailed htx hrx hlen hopen
  have hfuel := readsCost_le_dispatchBound (s := versionRead s) hrx
  exact sessionFails_of_goes hgo (by omega)

variable (hrx : s.rxFeed = bss1.map .bytes ++ rx) (hends : harvestEnds s.cfg 0x0008 1 s.cfg.regCh bss1)
include hrx hends

/-- The version is unmatched (R301, R303). -/
theorem sessionFails_version_unmatched
    (hgot : (harvested s.cfg.frameOrder 0x0008 1 s.cfg.regCh bss1).got = [false]) :
    SessionFails s .versionReadFailed tx rx 0 (.wrote (versionRecord s.cfg.regCh) :: harvestEvents bss1) := by
  obtain ⟨k, hk, hgo⟩ := (sessionRead_version (s := sessionBegun s) hwf).goes_incomplete htx hrx hends hgot
  have hfuel := readsCost_le_dispatchBound (s := versionRead s) hrx
  exact sessionFails_of_goes hgo (by omega)

variable (hgot : (harvested s.cfg.frameOrder 0x0008 1 s.cfg.regCh bss1).got = [true])
include hgot

/-- The version is another than 4 (R301, R303). -/
theorem sessionFails_version_mismatch
    (hout : (harvested s.cfg.frameOrder 0x0008 1 s.cfg.regCh bss1).out ≠ [4]) :
    SessionFails s .versionMismatch tx rx 0 (.wrote (versionRecord s.cfg.regCh) :: harvestEvents bss1) := by
  obtain ⟨v, hv⟩ := List.length_eq_one_iff.mp (harvested_length s.cfg.frameOrder 0x0008 1 s.cfg.regCh bss1)
  have hne : v ≠ 4 := fun e => hout (hv.trans (congrArg ([·]) e))
  obtain ⟨k, hk, hgo⟩ := goes_version_mismatch (s := sessionBegun s) hwf htx hrx hends hgot hne hv
  have hfuel := readsCost_le_dispatchBound (s := versionRead s) hrx
  exact sessionFails_of_goes hgo (by omega)

variable (hout : (harvested s.cfg.frameOrder 0x0008 1 s.cfg.regCh bss1).out = [4])
include hout

/-- After version 4, what ends the filter read or write ends SESSION_INIT (R302, R303). -/
theorem sessionFails_after_version {code : FatalCode} {tx2 : List WriteAnswer} {rx2 : List ReadAnswer} {n k : Nat}
    {ev2 : List PortEvent} {bss2 : List (List Byte)} {rest : List ReadAnswer} (hrx2 : rx = bss2.map .bytes ++ rest)
    (hk : k ≤ readsCost bss2 + 12) :
    let ev1 : List PortEvent := .wrote (versionRecord s.cfg.regCh) :: harvestEvents bss1
    let s1 := portsUsed tx rx ev1 (sessionBegun s)
    Goes k (startRead 0x0019 1 0x8000 s.cfg.regCh .sessFilterRead s1)
      (sessionEnded (.fatal code) n (portsUsed tx2 rx2 ev2 s1)) →
    SessionFails s code tx2 rx2 n (ev1 ++ ev2) := by
  intro ev1 s1 hgo
  obtain ⟨k1, hk1, hversion⟩ := goes_version_ok (s := sessionBegun s) hwf htx hrx hends hgot hout
  have hfuel := readsCost_add_le_dispatchBound (s := versionRead s) (hrx.trans (congrArg _ hrx2))
  rw [portsUsed_portsUsed] at hgo
  exact sessionFails_of_goes (hversion.trans hgo) (by omega)
end

/-- Settles O56: the operation that fails ends SESSION_INIT, after those before it. -/
theorem sessionInitFatal : Obligations.SessionInitFatal := by
  intro s hwf _ ch o c rec1 rec2 rec3 ends
  refine ⟨fun k tx htx => sessionFails_version_write hwf htx,
    fun tx bss1 rx htx hrx hlen hopen => sessionFails_version_read hwf htx hrx hlen hopen,
    fun tx bss1 rx htx hrx hends1 => ⟨fun hgot => sessionFails_version_unmatched hwf htx hrx hends1 hgot,
      fun hgot hout => sessionFails_version_mismatch hwf htx hrx hends1 hgot hout, fun hgot hout => ?_⟩⟩
  let s1 := portsUsed tx rx (.wrote rec1 :: harvestEvents bss1) (sessionBegun s)
  have hread := sessionRead_filter (s := s1) hwf
  refine ⟨fun k tx2 htx2 => ?_, fun tx2 bss2 rx2 htx2 hrx2 hlen hopen => ?_,
    fun tx2 bss2 rx2 htx2 hrx2 hends2 => ⟨fun hgot2 => ?_, fun k tx3 v hgot2 hout2 htx3 => ?_⟩⟩
  · exact sessionFails_after_version hwf htx hrx hends1 hgot hout (bss2 := []) (List.nil_append _).symm (by omega)
      (hread.goes_writeFailed htx2)
  · obtain ⟨k, hk, hgo⟩ := hread.goes_readFailed htx2 hrx2 hlen hopen
    have hfails := sessionFails_after_version hwf htx hrx hends1 hgot hout hrx2 (by omega) hgo
    rw [← List.append_assoc] at hfails
    exact hfails
  · obtain ⟨k, hk, hgo⟩ := hread.goes_incomplete htx2 hrx2 hends2 hgot2
    exact sessionFails_after_version hwf htx hrx hends1 hgot hout hrx2 (by omega) hgo
  · let s2 := portsUsed tx2 rx2 (.wrote rec2 :: harvestEvents bss2) s1
    obtain ⟨k2, hk2, hfilter⟩ := goes_filter_ok (s := s1) hwf htx2 hrx2 hends2 hgot2 hout2
    have hwrite := goes_filterWrite_failed (s := s2) hwf htx3 (v &&& 0xEF)
    rw [portsUsed_portsUsed] at hwrite
    have hfails := sessionFails_after_version hwf htx hrx hends1 hgot hout hrx2 (by omega) (hfilter.trans hwrite)
    rw [← List.append_assoc] at hfails
    exact hfails

end Sys2Proof.Machine
end

section
/-! SUPPORT. The proofs of the family of spec/60_exceptions.md: where a step waits for a read, what a dispatch that
waits has done, and the writes, which never wait. -/

namespace Sys2Proof.Machine

/-! ## Waiting -/

/-! ### A fetch without a draw -/

theorem serveHost_nil {s : State} (hp : s.port = []) : serveHost s = .next s := by
  simp only [serveHost, nextCommand, hp]

/-- With an empty cursor and no draw a fetch waits, and has done nothing (R161, R358). -/
theorem fetchWord_noDraw {s : State} (hfeed : s.rxFeed = []) (hcur : s.rx.rd = s.rx.lim) : fetchWord s = .waits s := by
  rw [fetchWord, if_pos hcur, hfeed, fetchRead]

theorem stepAwait_waits_iff {s t : State} : stepAwait s = .waits t ↔ fetchWord s = .waits t := by
  unfold stepAwait
  cases fetchWord s <;> simp

/-- A slot waits exactly where its word does; the end of a group needs none (R163, R164). -/
theorem consumeSlot_waits_iff {s t : State} (c : Nibble) :
    consumeSlot c s = .waits t ↔ s.rx.slot ≠ 7 ∧ fetchWord s = .waits t := by
  unfold consumeSlot
  split <;> rename_i hslot <;> rw [Lit.slotsPerGroup] at hslot
  · simp [hslot]
  · cases fetchWord s <;> simp [hslot]

/-- RX_DECODE waits exactly where a status word or a slot's word is due and its fetch waits (R160, R358). -/
theorem rxTick_waits_iff {s t : State} : rxTick s = .waits t ↔
    (s.rx.st = .awaitingStatus ∨ (s.rx.st = .inData ∨ s.rx.st = .inRemainder) ∧ s.rx.slot ≠ 7) ∧
      fetchWord s = .waits t := by
  cases hst : s.rx.st with
  | awaitingStatus => simp [rxTick_awaiting hst, stepAwait_waits_iff]
  | inData => simp [rxTick_slot (.inl hst), consumeSlot_waits_iff]
  | inRemainder => simp [rxTick_slot (.inr hst), consumeSlot_waits_iff]
  | tlpComplete => simp [rxTick, hst]

/-! ### A harvest read without a draw -/

theorem harvestRead_noDraw {s : State} (hfeed : s.rxFeed = []) : harvestRead s = .waits s := by
  rw [harvestRead, transportRead_none.mpr hfeed]

/-- The harvest reads on while reads are left, a byte is unmatched and the last read was not empty (R288). -/
theorem harvestGoesOn_iff (p : Params) (t : Txn) : harvestGoesOn p t = true ↔
    t.k < p.harvestReads ∧ (∃ b ∈ t.got, b = false) ∧ (t.k = 0 ∨ 4 ≤ t.buf.length) := by
  simp [harvestGoesOn, allGot, and_assoc]

/-- Before a harvest read what is due is the read, which no unit of the stream stands for (R288). -/
theorem due_harvestRead {s : State} (hc : s.ctl = .reg) (hp : s.txn.phase = .harvest) (hpend : s.txn.pend = [])
    (hgo : harvestGoesOn s.cfg s.txn = true) : due s = .act (harvestRead s) := by
  simp only [due, hc, dueReg, hp, hpend, harvestTick_read hpend hgo]

/-! ### What a dispatch that waits has done -/

/-- The state once every draw has been an empty read after which the transport is read again (R161, R173). -/
def emptyReads (s : State) : State :=
  { s with
    rx := if s.rxFeed = [] then s.rx
      else { s.rx with rd := 0, lim := 0, retries := s.rx.retries + s.rxFeed.length }
    rxFeed := [], trace := s.trace ++ s.rxFeed.map fun a => .didRead (clipAnswer a) }

theorem emptyReads_noDraw {s : State} (hfeed : s.rxFeed = []) : emptyReads s = s := by
  cases s
  simp_all [emptyReads]

/-- A dispatch waits only for a word of the receive stream, having used up every draw, or for a read of a harvest,
having found none (R358). -/
theorem tick_waits {s t : State} (h : tick s = .waits t) : t = emptyReads s ∧
    ((inRx s.ctl = true ∧ s.rx.rd = s.rx.lim) ∨ (s.ctl = .reg ∧ s.txn.phase = .harvest ∧ s.rxFeed = [])) := by
  cases hc : s.ctl with
  | idle => simp [tick, hc] at h
  | rx b =>
    rw [tick_rx hc, rxTick_waits_iff] at h
    obtain ⟨hcur, ht⟩ := fetchWord_waits h.2
    exact ⟨ht, .inl ⟨rfl, hcur⟩⟩
  | send ws => cases ws <;> simp [tick, hc] at h
  | reg =>
    rw [tick, hc] at h
    obtain ⟨rfl, hfeed, hp⟩ := regTick_waits h
    exact ⟨(emptyReads_noDraw hfeed).symm, .inr ⟨rfl, hp, hfeed⟩⟩

/-! ### Writes go on -/

/-- Emitting a record puts it into a batch or ends the call, whatever the write before it answers (R284). -/
theorem issueRecord_goesOn (r : Rec) (s : State) :
    (issueRecord r s).txn.put = s.txn.put + 1 ∨ (issueRecord r s).txn.phase = .done := by
  rcases issueRecord_cases r s with ⟨-, e⟩ | ⟨-, ⟨s1, hw, e⟩ | ⟨s1, -, e⟩⟩ <;> rw [e]
  · exact .inl rfl
  · exact .inl (by rw [transportWrite_true hw]; rfl)
  · exact .inr rfl

theorem emitRegReq_goesOn (region ch : BitVec 2) (r : Rec) (s : State) :
    ∃ t, emitRegReq region ch r s = .next t ∧ (t.txn.put = s.txn.put + 1 ∨ t.txn.phase = .done) := by
  unfold emitRegReq
  split
  · exact ⟨_, rfl, issueRecord_goesOn r s⟩
  · exact ⟨_, rfl, .inr rfl⟩

theorem afterIssue_phase (s : State) : (afterIssue s).txn.phase = .wait ∨ (afterIssue s).txn.phase = .done := by
  unfold afterIssue
  split
  · exact .inr rfl
  · exact .inl rfl

/-- The last batch ends the issue, whatever its write answers (R284, R290, R295). -/
theorem flushBatch_phase (s : State) : (flushBatch s).txn.phase = .wait ∨ (flushBatch s).txn.phase = .done := by
  rcases flushBatch_cases s with ⟨-, e⟩ | ⟨-, ⟨s1, -, e⟩ | ⟨s1, -, e⟩⟩ <;> rw [e]
  · exact afterIssue_phase s
  · exact afterIssue_phase s1
  · exact .inr rfl

/-- With every record put, what is due is the last batch, which no unit of the stream stands for (R284). -/
theorem due_flushBatch {s : State} (hc : s.ctl = .reg) (hp : s.txn.phase = .issue)
    (hput : s.txn.put = s.txn.recs.length) : due s = .act (.go (flushBatch s)) := by
  have hnone : s.txn.recs[s.txn.put]? = none := List.getElem?_eq_none hput.ge
  simp only [due, hc, dueReg, hp, hnone]

/-- The due record is emitted, or the step rule deals with one that spells no unit; either way the issue goes on
(R284, R135). -/
theorem resumeOp_record {s : State} {r : Rec} (hc : s.ctl = .reg) (hp : s.txn.phase = .issue)
    (hr : s.txn.recs[s.txn.put]? = some r) :
    ∃ t, resumeOp s = .next t ∧ (t.txn.put = s.txn.put + 1 ∨ t.txn.phase = .done) := by
  have hdue : due s = .unit ⟨.regReq, [r.toNat]⟩ s := by simp only [due, hc, dueReg, hp, hr]
  cases hd : decode ⟨.regReq, [r.toNat]⟩ with
  | ok i =>
    obtain ⟨region, ch, r', hexec⟩ := decode_regReq_yields _ i hd
    rw [resumeOp_unit hdue hd, hexec]
    exact emitRegReq_goesOn region ch r' s
  | error e =>
    have htick : tick s = .go (issueRecord r s) := by simp only [tick, hc, regTick, hp, hr]
    rw [resumeOp_reject hdue hd, htick]
    exact ⟨_, rfl, issueRecord_goesOn r s⟩

/-- Settles O14: without a draw the step does nothing; a dispatch waits in a fetch or in a harvest read alone; and a
write takes its answer, listed or free, and goes on. -/
theorem waitingKeepsState : Obligations.WaitingKeepsState := by
  intro s hh hcur
  refine ⟨fun hc hp => ?_, fun b hc hfeed hempty hdue => ?_, fun hc hp hpend hfeed hk hgot hbuf => ?_,
    fun t h => tick_waits h, fun hc => ?_, fun r hc hp hr _ => ?_, fun hc hp hput => ?_⟩
  · rw [step_of_idle hh hcur hc, serveHost_nil hp]
  · rw [step_rx hc hh hcur, rxTick_waits_iff.mpr ⟨hdue, fetchWord_noDraw hfeed hempty⟩]
    rfl
  · have hgo : harvestGoesOn s.cfg s.txn = true := (harvestGoesOn_iff _ _).mpr ⟨hk, hgot, hbuf⟩
    rw [step_of_busy hh hcur (by rw [hc]; nofun), resumeOp_act (due_harvestRead hc hp hpend hgo),
      harvestRead_noDraw hfeed]
    rfl
  · have hdue : due s = .act (.go (sendFrame s)) := by simp only [due, hc]
    obtain ⟨-, -, hidle⟩ := sendFrame_frame s
    exact ⟨_, (step_of_busy hh hcur (by rw [hc]; nofun)).trans (resumeOp_act hdue), hidle⟩
  · rw [step_of_busy hh hcur (by rw [hc]; nofun)]
    exact resumeOp_record hc hp hr
  · exact ⟨_, (step_of_busy hh hcur (by rw [hc]; nofun)).trans (resumeOp_act (due_flushBatch hc hp hput)),
      flushBatch_phase s⟩

end Sys2Proof.Machine
end

section
/-! SUPPORT. The proofs of the family of spec/70_reset_and_hazards.md: an operation run in one step and the same
operation dispatched unit by unit. -/

namespace Sys2Proof.Machine

/-! ## A dispatch and the session -/

/-- The operation goes on with the same session, or it has ended: Fatal is reached by the last dispatch of an
operation alone (R300-R303). -/
def EndsOrKeepsSession (s t : State) : Prop := t.session = s.session ∨ t.ctl = .idle

/-- What commutes with replacing the session keeps it: replace it by itself. -/
theorem EndsOrKeepsSession.of_setSession {s t : State} (h : t = t.setSession s.session) : EndsOrKeepsSession s t :=
  .inl ((congrArg State.session h).trans (State.setSession_session t s.session))

theorem EndsOrKeepsSession.of_tick {s : State} {t : Tick} (h : t = t.map fun u => u.setSession s.session) :
    EndsOrKeepsSession s t.state := .of_setSession ((congrArg Tick.state h).trans (Tick.state_map _ t))

/-- SESSION_INIT writes the session where it ends; from a call to the next one of it the session stays (R300-R302). -/
theorem finishPhase_session (s : State) : EndsOrKeepsSession s (finishPhase s) := by
  cases h : isSessionCont s.txn.cont with
  | false => exact .of_setSession (finishPhase_setSession s s.session h)
  | true =>
    have hend (x : Session) : EndsOrKeepsSession s (endSession x s) := .inr rfl
    unfold finishPhase
    simp only
    split <;> rename_i hcont <;> simp only [hcont, isSessionCont, Bool.false_eq_true] at h
    · split
      · exact hend _
      · split
        · exact hend _
        · exact .inl rfl
    · split
      · exact hend _
      · exact .inl rfl
    · split
      · exact hend _
      · exact hend _

theorem regTick_session (s : State) : EndsOrKeepsSession s (regTick s).state := by
  unfold regTick
  split
  · exact .of_setSession (checkOperands_setSession s s.session)
  · split
    · exact .of_setSession (issueRecord_setSession s s.session _)
    · exact .of_setSession (flushBatch_setSession s s.session)
  · exact .inl rfl
  · exact .of_tick (harvestTick_setSession s s.session)
  · exact finishPhase_session s

theorem tick_session (s : State) : EndsOrKeepsSession s (tick s).state := by
  by_cases hc : s.ctl = .reg
  · simpa only [tick, hc] using regTick_session s
  · exact .of_tick (tick_setSession s s.session fun h => absurd h hc)

theorem hasHalted_congr {s t : State} (h : t.session = s.session) : hasHalted t = hasHalted s := by
  rw [hasHalted, hasHalted, h]

/-- A dispatch after which there is no further step has ended its operation (R303). -/
theorem tick_idle_of_halted {s : State} (hh : hasHalted s = false) (h : hasHalted (tick s).state = true) :
    (tick s).state.ctl = .idle := by
  refine (tick_session s).resolve_left fun hsame => ?_
  rw [hasHalted_congr hsame, hh] at h
  cases h

/-! ## An operation is its steps -/

theorem stepN_succ {s t : State} (n : Nat) (h : step s = .next t) : stepN (n + 1) s = stepN n t := by
  rw [stepN, h]

/-- Every dispatch of a run is a step, as long as there is a next one: once the session is Fatal the operation has
ended, and the run with it (R303). -/
theorem run_eq_stepN (fuel : Nat) {s : State} (hok : MachineOk s) (hstop : hasHalted s = true → s.ctl = .idle) :
    ∃ n, run fuel s = stepN n s := by
  induction fuel generalizing s with
  | zero => exact ⟨0, rfl⟩
  | succ fuel ih =>
    by_cases hc : s.ctl = .idle
    · exact ⟨0, run_idle _ hc⟩
    have hh : hasHalted s = false := Bool.eq_false_iff.mpr fun h => hc (hstop h)
    have hstep : step s = .next (tick s).state := stepAgreesWithRules s hh hc ((machineOk_iff s).mp hok)
    have hnext := hok.tick
    have hstop' := tick_idle_of_halted hh
    cases e : tick s with
    | waits t =>
      rw [e] at hstep
      exact ⟨1, (run_waits fuel hc e).trans (stepN_succ 0 hstep).symm⟩
    | go t =>
      rw [e] at hstep hnext hstop'
      obtain ⟨n, hn⟩ := ih hnext hstop'
      exact ⟨n + 1, (run_go fuel hc e).trans (hn.trans (stepN_succ n hstep).symm)⟩

/-- Settles O8: the run's dispatches are steps, one by one. -/
theorem operationIsItsSteps : Obligations.OperationIsItsSteps := by
  intro s hh hinv
  exact run_eq_stepN _ ((machineOk_iff s).mpr hinv) fun h => absurd (hh.symm.trans h) nofun

end Sys2Proof.Machine
end
